-- ==== Sys2Proof/Word.lean ====
section
/-! DEFINITION. Words of the heater-bus protocol engine: a byte, a byte sequence, and the two register widths
(rules R6 and R7). Byte 0 of a sequence is the first byte on the wire (R7, R51). -/

namespace Sys2Proof

/-- `u8` of rule R6. -/
abbrev Byte := BitVec 8

/-- A frame or a command: a finite sequence of bytes in wire order (R7, R51). -/
abbrev Bytes := List Byte

/-- `u16` of rule R6. -/
abbrev U16 := BitVec 16

/-- `u32` of rule R6; also the time base in milliseconds (R161). -/
abbrev U32 := BitVec 32

end Sys2Proof
end

