-- ==== Sys2Proof/Config.lean ====
section
/-! DEFINITION. What is fixed for one engine: the implementation parameters of rule R5 and the one free value of
the environment (U20 of 93_implementation_defined.md). A model "takes the following parameters": the whole machine
is written over `Params`, which State carries and no step changes; `Config.params` is only what `State.reset`
starts from (log entry 1). -/

namespace Sys2Proof

/-- The OPEN implementation parameters of rule R5. -/
structure Params where
  /-- `TX_HEADER` -/
  txHeader : Byte
  /-- `RX_HEADER` -/
  rxHeader : Byte
  /-- `QDEPTH_P` -/
  qdepthP : Nat
  /-- `QDEPTH_N` -/
  qdepthN : Nat
  /-- `CMD_MAX_BYTES` -/
  cmdMaxBytes : Nat
  /-- `RESET_SPACING_MS` -/
  resetSpacing : U32
  /-- `RESET_TIMEOUT_MS` -/
  resetTimeout : U32
  /-- `RESET_BREAK_MS` -/
  resetBreak : U32
  /-- `RESET_MAX_RETRIES` -/
  resetMaxRetries : BitVec 8
  deriving DecidableEq, Repr

/-- The constraints of rule R5 on the parameters. -/
abbrev Params.Ok (p : Params) : Prop :=
  p.txHeader ≠ p.rxHeader ∧ 1 ≤ p.qdepthP ∧ 1 ≤ p.qdepthN ∧ p.qdepthP + p.qdepthN ≤ 65535 ∧
    1 ≤ p.cmdMaxBytes ∧ p.cmdMaxBytes ≤ 254

/-- `NAK_CMD` (R5): fixed. -/
abbrev nakCmd : Byte := 0x7F

/-- `ACK_BIT` (R5): fixed, bit 7. -/
abbrev ackBit : Byte := 0x80

/-- `RX_BUF_BYTES` (R5): fixed, the largest frame a length byte can declare. -/
abbrev rxBufBytes : Nat := 257

/-- The parameters `State.reset` starts from. PRESUMED for the headers (the spec's own example values F4 and 4F,
K2) and the 50 ms break (K3), DESIGN CHOICE for the rest (the values of 95_test_vectors.md, zero where it gives
none): unsafe, log entry 1. No statement rests on them: each one quantifies over the parameters. -/
def Config.params : Params where
  txHeader := 0xF4
  rxHeader := 0x4F
  qdepthP := 4
  qdepthN := 4
  cmdMaxBytes := 254
  resetSpacing := 0
  resetTimeout := 0
  resetBreak := 50
  resetMaxRetries := 0

/-- The free value: the line environment's answer `tx_ok` to its `n`-th unscripted transmission (R164, R36, U20).
It has no body, so nothing can rest on what it is (log entry 4). -/
opaque Config.freeTxOk : Nat → Bool

end Sys2Proof
end

