-- ==== Sys2Proof/Syntax.lean ====
section
/-! DEFINITION. The instruction syntax: one constructor for every mnemonic of spec/opcode_table.json. The first
thirteen are the host operations of rule R74 (POLL among them), then the unassigned opcodes (R77: the table gives
the one mnemonic six rows, one for each block of unassigned opcodes; the opcode is the operand), then the five
wire-frame classes of R78 as frames that arrive on the receive path (log entry 3). -/

namespace Sys2Proof

/-- The queue operand: `q` of R75, P = priority, N = normal. -/
inductive Queue where
  | prio
  | norm
  deriving DecidableEq, Repr

/-- A direction: `dir` of READ_FRAME, `hdr_sel` of ENCODE, the direction a frame's header gives (R70). -/
inductive Dir where
  | rx
  | tx
  deriving DecidableEq, Repr

inductive Instr where
  /-- ENQN (R140): opcode 0x01 -/
  | enqn (c : Bytes) (loop : Bool) (tag : Option U16)
  /-- ENQP (R141): opcode 0x02 -/
  | enqp (c : Bytes) (loop : Bool) (tag : Option U16)
  /-- CLEAR (R143): opcode 0x03 -/
  | clear
  /-- IS_IDLE (R144): opcode 0x04 -/
  | isIdle
  /-- PENDING (R145): opcode 0x05 -/
  | pending
  /-- SET_TIMING (R175): opcode 0x06, three durations in milliseconds -/
  | setTiming (spacing timeout brk : U32)
  /-- SET_MAX_RETRIES (R176): opcode 0x07 -/
  | setMaxRetries (n : BitVec 8)
  /-- SET_CAPACITY (R146): opcode 0x08 -/
  | setCapacity (q : Queue) (n : U16)
  /-- READ_REG (R147): opcode 0x09 -/
  | readReg (regno : Byte)
  /-- READ_FRAME (R131): opcode 0x0A -/
  | readFrame (dir : Dir)
  /-- ENCODE (R101): opcode 0x0B -/
  | encodeOp (hdrSel : Dir) (command : Byte) (index : Option Byte) (payload : Bytes)
  /-- DECODE (R103): opcode 0x0C -/
  | decodeOp (bytes : Bytes) (expCmd expIdx : Option Byte) (minLen : Option U16)
  /-- POLL (R160): opcode 0x0D -/
  | poll (now : U32)
  /-- Opcodes 0x00 and 0x0E to 0xFF (R77, R151); `rest` is whatever follows the opcode in the request. -/
  | reservedIllegalOp (op : Byte) (rest : Bytes)
  /-- FRAME_ECHO_TX (R78, R121): the frame `TX_HEADER :: body` as the framer bounds it, its checksum unchecked. -/
  | frameEchoTx (body : Bytes)
  /-- FRAME_REPLY_RX (R78, R121): the frame `RX_HEADER :: body` as the framer bounds it, its checksum unchecked. -/
  | frameReplyRx (body : Bytes)
  /-- FRAME_NAK (R78, R104): the well-formed frame (R70) whose command byte is 0x7F. -/
  | frameNak (dir : Dir) (data : Bytes)
  /-- FRAME_ACK (R78): the well-formed frame whose command byte has bit 7 set; `cmd` is its bits 6..0. -/
  | frameAck (dir : Dir) (cmd : BitVec 7) (data : Bytes)
  /-- FRAME_PLAIN (R78): the well-formed frame whose command byte has bit 7 clear and is not 0x7F. -/
  | framePlain (dir : Dir) (cmd : BitVec 7) (data : Bytes)
  deriving DecidableEq, Repr

end Sys2Proof
end

