-- ==== Sys2Proof/Machine/Frame.lean ====
section
/-! DEFINITION. Byte-level helpers of the wire frame: the XOR checksum (R7, R73), the frame a command string has
(R70, R100), the command-byte tests (R78), and integers as bytes, most significant byte first (R75). -/

namespace Sys2Proof

/-- `xor_fold` (R7): the XOR of every byte, 0x00 for the empty sequence. -/
def xorFold : Bytes → Byte
  | [] => 0
  | b :: bs => b ^^^ xorFold bs

/-- `s[i]` (R7). Every caller asks for a byte the sequence has. -/
def byteAt (s : Bytes) (i : Nat) : Byte := s.getD i 0

/-- The length byte of command string `c` (R72): `L = len(c) + 1`. -/
def lengthByte (c : Bytes) : Byte := BitVec.ofNat 8 (c.length + 1)

/-- Header, length byte and command string: every byte the checksum covers (R100). -/
def frameHead (h : Byte) (c : Bytes) : Bytes := h :: lengthByte c :: c

/-- `EncodeFrame(h, c)` (R100). -/
def encodeFrame (h : Byte) (c : Bytes) : Bytes := frameHead h c ++ [xorFold (frameHead h c)]

/-- The header a direction has (R70, R101). -/
def headerOf (p : Params) : Dir → Byte
  | .tx => p.txHeader
  | .rx => p.rxHeader

/-- The NAK test on a raw command byte (R78, R104): no mask. -/
def isNakByte (cmd : Byte) : Bool := cmd == nakCmd

/-- The ACK test on a command byte (R78): bit 7. -/
def isAckByte (cmd : Byte) : Bool := cmd &&& ackBit == ackBit

/-- The command byte "with the ACK bit masked off" (R105). -/
def maskAck (cmd : Byte) : Byte := cmd &&& 0x7F

/-- A 16-bit integer as two bytes (R75). -/
def be16 (v : U16) : Bytes := [v.extractLsb' 8 8, v.extractLsb' 0 8]

/-- A 32-bit integer as four bytes (R75). -/
def be32 (v : U32) : Bytes := [v.extractLsb' 24 8, v.extractLsb' 16 8, v.extractLsb' 8 8, v.extractLsb' 0 8]

/-- Two bytes as a 16-bit integer (R75). -/
def ofBe16 (hi lo : Byte) : U16 := hi ++ lo

/-- Four bytes as a 32-bit integer (R75). -/
def ofBe32 (b3 b2 b1 b0 : Byte) : U32 := (b3 ++ b2) ++ (b1 ++ b0)

end Sys2Proof
end

