-- ==== Sys2Proof/WellFormed.lean ====
section
/-! DEFINITION. Which terms of `Instr` have an encoding: count fields that fit their bytes (R75), opcodes that are
unassigned (R77), and wire frames with the layout of R70 and the length limits of R72. Operand VALUES an operation
refuses with `BAD_ARG` (an empty command, a capacity above the depth) are well formed: the operation refuses them. -/

namespace Sys2Proof

/-- Opcodes 0x00 and 0x0E to 0xFF are unassigned (R77). -/
def unassignedOpcode (op : Byte) : Bool := op == 0x00 || 0x0E ≤ op.toNat

/-- After the header: a length byte `L` and exactly the `L` bytes it declares (R80, R123). -/
def completeBody : Bytes → Bool
  | [] => false
  | l :: rest => rest.length == l.toNat

/-- `command ++ data` fits the length byte (R72): at most 254 bytes with the command byte. -/
def fitsFrame (data : Bytes) : Bool := data.length ≤ 253

def WellFormed : Instr → Bool
  | .enqn c _ _ => c.length ≤ 255
  | .enqp c _ _ => c.length ≤ 255
  | .clear => true
  | .isIdle => true
  | .pending => true
  | .setTiming _ _ _ => true
  | .setMaxRetries _ => true
  | .setCapacity _ _ => true
  | .readReg _ => true
  | .readFrame _ => true
  | .encodeOp _ _ _ payload => payload.length ≤ 255
  | .decodeOp bytes _ _ _ => bytes.length ≤ 65535
  | .poll _ => true
  | .reservedIllegalOp op _ => unassignedOpcode op
  | .frameEchoTx body => completeBody body
  | .frameReplyRx body => completeBody body
  | .frameNak _ data => fitsFrame data
  | .frameAck _ _ data => fitsFrame data
  | .framePlain _ cmd data => cmd != 0x7F && fitsFrame data

/-- The rows of the host request format (R74, R77); the others are wire frames (R78). -/
def Instr.isRequest : Instr → Bool
  | .frameEchoTx _ => false
  | .frameReplyRx _ => false
  | .frameNak _ _ => false
  | .frameAck _ _ _ => false
  | .framePlain _ _ _ => false
  | .enqn _ _ _ => true
  | .enqp _ _ _ => true
  | .clear => true
  | .isIdle => true
  | .pending => true
  | .setTiming _ _ _ => true
  | .setMaxRetries _ => true
  | .setCapacity _ _ => true
  | .readReg _ => true
  | .readFrame _ => true
  | .encodeOp _ _ _ _ => true
  | .decodeOp _ _ _ _ => true
  | .poll _ => true
  | .reservedIllegalOp _ _ => true

end Sys2Proof
end

