-- ==== Sys2Proof/Decode.lean ====
section
/-! DEFINITION. The decoders and, after them, the encoder. Host requests are decoded from their bytes (R74, R75,
R77): total, every request without an instruction rejected by name. Wire frames are classified as R78 says: the
framer tests the header byte, the codec the command byte; a frame may fall under a class of each. -/

namespace Sys2Proof

/-- Why the bytes of a request are no instruction. Every one is answered `BAD_ARG` (R75, R77). -/
inductive Reject where
  /-- a request without any byte (log entry 6) -/
  | noOpcode
  /-- not exactly the length R75 gives -/
  | wrongLength
  /-- a reserved `flags` bit is not 0 -/
  | reservedFlags
  /-- a `q` or `dir` byte other than 0 and 1 -/
  | badSelector
  deriving DecidableEq, Repr

/-- What a request decodes to. -/
inductive Decoded (α : Type) where
  | ok (a : α)
  | reject (r : Reject)
  deriving DecidableEq, Repr

def Decoded.map {α β : Type} (f : α → β) : Decoded α → Decoded β
  | .ok a => .ok (f a)
  | .reject r => .reject r

def Decoded.toOption {α : Type} : Decoded α → Option α
  | .ok a => some a
  | .reject _ => none

/-- An operand that a flag bit makes present; absent operands' bytes are ignored (R75). -/
def presentIf {α : Type} (has : Bool) (a : α) : Option α := if has then some a else none

/-- `[flags][tag_hi][tag_lo][n][c…]` of ENQN and ENQP (R75). -/
def decodeEnqueue : Bytes → Decoded (Bytes × Bool × Option U16)
  | flags :: hi :: lo :: n :: c =>
    if flags &&& 0xFC ≠ 0 then .reject .reservedFlags
    else if c.length ≠ n.toNat then .reject .wrongLength
    else .ok (c, flags.getLsbD 0, presentIf (flags.getLsbD 1) (ofBe16 hi lo))
  | _ => .reject .wrongLength

/-- A request of the opcode alone (R75). -/
def decodeBare (i : Instr) : Bytes → Decoded Instr
  | [] => .ok i
  | _ => .reject .wrongLength

def decodeSetTiming : Bytes → Decoded Instr
  | [s3, s2, s1, s0, t3, t2, t1, t0, b3, b2, b1, b0] =>
    .ok (.setTiming (ofBe32 s3 s2 s1 s0) (ofBe32 t3 t2 t1 t0) (ofBe32 b3 b2 b1 b0))
  | _ => .reject .wrongLength

def decodeOneByte (f : Byte → Instr) : Bytes → Decoded Instr
  | [b] => .ok (f b)
  | _ => .reject .wrongLength

/-- `q` = 0 is PQ, 1 is NQ (R75). -/
def queueOfByte (b : Byte) : Option Queue := if b = 0 then some .prio else if b = 1 then some .norm else none

/-- `dir` = 0 is RX, 1 is TX (R75). -/
def dirOfByte (b : Byte) : Option Dir := if b = 0 then some .rx else if b = 1 then some .tx else none

def decodeSetCapacity : Bytes → Decoded Instr
  | [q, hi, lo] =>
    match queueOfByte q with
    | some q => .ok (.setCapacity q (ofBe16 hi lo))
    | none => .reject .badSelector
  | _ => .reject .wrongLength

def decodeReadFrame : Bytes → Decoded Instr
  | [d] =>
    match dirOfByte d with
    | some d => .ok (.readFrame d)
    | none => .reject .badSelector
  | _ => .reject .wrongLength

/-- `[flags][command][index][n][p…]` of ENCODE; `hdr_sel` = flags bit 1, 0 = TX (R75, R101). -/
def decodeEncode : Bytes → Decoded Instr
  | flags :: command :: index :: n :: payload =>
    if flags &&& 0xFC ≠ 0 then .reject .reservedFlags
    else if payload.length ≠ n.toNat then .reject .wrongLength
    else .ok (.encodeOp (if flags.getLsbD 1 then .rx else .tx) command (presentIf (flags.getLsbD 0) index) payload)
  | _ => .reject .wrongLength

/-- `[flags][exp_cmd][exp_idx][min_hi][min_lo][n_hi][n_lo][s…]` of DECODE (R75, R103). -/
def decodeDecode : Bytes → Decoded Instr
  | flags :: cmd :: idx :: mhi :: mlo :: nhi :: nlo :: bytes =>
    if flags &&& 0xF8 ≠ 0 then .reject .reservedFlags
    else if bytes.length ≠ (ofBe16 nhi nlo).toNat then .reject .wrongLength
    else .ok (.decodeOp bytes (presentIf (flags.getLsbD 0) cmd) (presentIf (flags.getLsbD 1) idx)
      (presentIf (flags.getLsbD 2) (ofBe16 mhi mlo)))
  | _ => .reject .wrongLength

def decodePoll : Bytes → Decoded Instr
  | [t3, t2, t1, t0] => .ok (.poll (ofBe32 t3 t2 t1 t0))
  | _ => .reject .wrongLength

/-- The host port's decoder: the first byte is the opcode (R74). The opcode is tested before the form of the rest
(R209 item 8), so an unassigned opcode is no malformed request whatever follows it. -/
def decodeRequest : Bytes → Decoded Instr
  | [] => .reject .noOpcode
  | op :: rest =>
    match op.toNat with
    | 0x01 => (decodeEnqueue rest).map fun x => .enqn x.1 x.2.1 x.2.2
    | 0x02 => (decodeEnqueue rest).map fun x => .enqp x.1 x.2.1 x.2.2
    | 0x03 => decodeBare .clear rest
    | 0x04 => decodeBare .isIdle rest
    | 0x05 => decodeBare .pending rest
    | 0x06 => decodeSetTiming rest
    | 0x07 => decodeOneByte .setMaxRetries rest
    | 0x08 => decodeSetCapacity rest
    | 0x09 => decodeOneByte .readReg rest
    | 0x0A => decodeReadFrame rest
    | 0x0B => decodeEncode rest
    | 0x0C => decodeDecode rest
    | 0x0D => decodePoll rest
    | _ => .ok (.reservedIllegalOp op rest)

/-- The direction a header byte gives (R70, R78), `none` for a byte that is neither header. -/
def dirOfHeader (p : Params) (h : Byte) : Option Dir :=
  if h = p.txHeader then some .tx else if h = p.rxHeader then some .rx else none

/-- The framer's class of a complete frame, by its header byte (R78, R121). -/
def headerRow (p : Params) : Bytes → Option Instr
  | [] => none
  | h :: body =>
    if completeBody body then
      match dirOfHeader p h with
      | some .tx => some (.frameEchoTx body)
      | some .rx => some (.frameReplyRx body)
      | none => none
    else none

/-- The layout of R70: at least 4 bytes, `L = n - 2`, and the checksum right. -/
def wellFormedFrame (s : Bytes) : Bool :=
  4 ≤ s.length && (byteAt s 1).toNat == s.length - 2 && byteAt s (s.length - 1) == xorFold (s.take (s.length - 1))

/-- The codec's class of a well-formed frame, by its command byte (R78, R104). -/
def commandRow (p : Params) (s : Bytes) : Option Instr :=
  if wellFormedFrame s then
    (dirOfHeader p (byteAt s 0)).map fun d =>
      if isNakByte (byteAt s 2) then .frameNak d ((s.take (s.length - 1)).drop 3)
      else if isAckByte (byteAt s 2) then .frameAck d ((byteAt s 2).setWidth 7) ((s.take (s.length - 1)).drop 3)
      else .framePlain d ((byteAt s 2).setWidth 7) ((s.take (s.length - 1)).drop 3)
  else none

/-- One row for bytes that arrive on the wire: a TX frame is an echo, whatever its command; an RX frame goes by its
command class where it is well formed, else by its header. Every row a frame falls under has the same effect
(log entry 3), so the choice shows nowhere. `none`: the bytes are no complete frame (noise, or a part of one). -/
def decodeWire (p : Params) (s : Bytes) : Option Instr :=
  match headerRow p s with
  | some (.frameReplyRx body) => (commandRow p s).or (some (.frameReplyRx body))
  | r => r

/-- `flags` with the given bits 0, 1 and 2; the reserved bits are 0 (R75). -/
def flagByte (b0 b1 b2 : Bool) : Byte :=
  (if b0 then 1 else 0) ||| (if b1 then 2 else 0) ||| (if b2 then 4 else 0)

/-- Operand bytes of ENQN and ENQP (R75); an absent tag's bytes are written as 0. -/
def encodeEnqueue (c : Bytes) (loop : Bool) (tag : Option U16) : Bytes :=
  flagByte loop tag.isSome false :: (be16 (tag.getD 0) ++ BitVec.ofNat 8 c.length :: c)

/-- The command byte of an ACK frame: bit 7 set (R78). -/
def ackCommand (cmd : BitVec 7) : Byte := ackBit ||| cmd.setWidth 8

/-- The bytes of an instruction: a request as R75 lays it out, or a frame as R70 does. -/
def encode (p : Params) : Instr → Bytes
  | .enqn c loop tag => 0x01 :: encodeEnqueue c loop tag
  | .enqp c loop tag => 0x02 :: encodeEnqueue c loop tag
  | .clear => [0x03]
  | .isIdle => [0x04]
  | .pending => [0x05]
  | .setTiming spacing timeout brk => 0x06 :: (be32 spacing ++ be32 timeout ++ be32 brk)
  | .setMaxRetries n => [0x07, n]
  | .setCapacity .prio n => 0x08 :: 0 :: be16 n
  | .setCapacity .norm n => 0x08 :: 1 :: be16 n
  | .readReg regno => [0x09, regno]
  | .readFrame .rx => [0x0A, 0]
  | .readFrame .tx => [0x0A, 1]
  | .encodeOp hdrSel command index payload =>
    0x0B :: flagByte index.isSome (hdrSel == .rx) false :: command :: index.getD 0 ::
      BitVec.ofNat 8 payload.length :: payload
  | .decodeOp bytes expCmd expIdx minLen =>
    0x0C :: flagByte expCmd.isSome expIdx.isSome minLen.isSome :: expCmd.getD 0 :: expIdx.getD 0 ::
      (be16 (minLen.getD 0) ++ be16 (BitVec.ofNat 16 bytes.length) ++ bytes)
  | .poll now => 0x0D :: be32 now
  | .reservedIllegalOp op rest => op :: rest
  | .frameEchoTx body => p.txHeader :: body
  | .frameReplyRx body => p.rxHeader :: body
  | .frameNak dir data => encodeFrame (headerOf p dir) (nakCmd :: data)
  | .frameAck dir cmd data => encodeFrame (headerOf p dir) (ackCommand cmd :: data)
  | .framePlain dir cmd data => encodeFrame (headerOf p dir) (cmd.setWidth 8 :: data)

/-- "The length of a serialised host request follows from its opcode and its count fields" (R80, R75). An unassigned
opcode is given no length: the opcode alone is a whole request. -/
def requestLength (s : Bytes) : Nat :=
  match (byteAt s 0).toNat with
  | 0x01 => 5 + (byteAt s 4).toNat
  | 0x02 => 5 + (byteAt s 4).toNat
  | 0x06 => 13
  | 0x07 => 2
  | 0x08 => 4
  | 0x09 => 2
  | 0x0A => 2
  | 0x0B => 5 + (byteAt s 4).toNat
  | 0x0C => 8 + (ofBe16 (byteAt s 6) (byteAt s 7)).toNat
  | 0x0D => 5
  | _ => 1

/-- The `k` bytes of the number `w`, bits 7..0 first (spec/opcode_table.json's numbering). -/
def wordBytes : Nat → Nat → Bytes
  | 0, _ => []
  | k + 1, w => BitVec.ofNat 8 w :: wordBytes k (w / 256)

/-- The request whose first `nbits` bits are `w`'s and whose other bits are 0, as long as its opcode and its count
fields say (R80), and never shorter than `nbits`. -/
def requestBytes (nbits w : Nat) : Bytes :=
  wordBytes (max ((nbits + 7) / 8) (requestLength (wordBytes 8 (w % 2 ^ nbits)))) (w % 2 ^ nbits)

/-- What the decoder of the host port reads from a word of spec/opcode_table.json. The table's wire-frame rows are
tests on byte 0 or byte 2 of a frame, not on a request's opcode: their words are read here as the requests they
would be (NOTES.md). -/
def decodeTableWord (nbits w : Nat) : Option Instr := (decodeRequest (requestBytes nbits w)).toOption

end Sys2Proof
end

