-- ==== Sys2Proof/Machine/State.lean ====
section
/-! DEFINITION. The state as plain data: everything rules R20 to R32 give the block, the parameters it was built
with (R5), what the ports of R213 carry into the block and out of it, and the model's counter for free values; and
the state after reset (R35, R230). -/

namespace Sys2Proof.Machine

/-- `QSTATE` codes (R20). Codes 5, 6 and 7 are reserved. -/
abbrev qIdle : BitVec 3 := 0
abbrev qSending : BitVec 3 := 1
abbrev qBreakSet : BitVec 3 := 2
abbrev qBreakReset : BitVec 3 := 3
abbrev qRetry : BitVec 3 := 4

/-- `FR_PHASE` codes (R31). Code 3 is reserved. -/
abbrev frIdle : BitVec 2 := 0
abbrev frAccTx : BitVec 2 := 1
abbrev frAccRx : BitVec 2 := 2

/-- A queue entry (R27). -/
structure Entry where
  cmd : Bytes
  loop : Bool
  tag : Option U16
  deriving DecidableEq, Repr

/-- The in-flight slot (R26). -/
structure InFlight where
  /-- `IF_VALID` -/
  valid : Bool
  /-- `IF_CMD` -/
  cmd : Bytes
  /-- `IF_LOOP` -/
  loop : Bool
  /-- `IF_TAG` -/
  tag : Option U16
  /-- `IF_ORIGIN`: 0 (`prio`) = taken from PQ, 1 (`norm`) = taken from NQ -/
  origin : Queue
  /-- `IF_TXFRAME` -/
  txFrame : Bytes
  deriving DecidableEq, Repr

/-- The cleared slot (R26, R166, R207): "the other fields are empty or 0". -/
def InFlight.empty : InFlight where
  valid := false
  cmd := []
  loop := false
  tag := none
  origin := .prio
  txFrame := []

/-- The result codes other than `OK` (R76). -/
inductive ErrCode where
  | queueFull
  | duplicate
  | badArg
  | illegalOp
  | decTooShort
  | decMinLength
  | decLengthMismatch
  | decChecksum
  | decCommandMismatch
  | decIndexMismatch
  deriving DecidableEq, Repr

/-- The record of a successful `Decode` (R109). -/
structure FrameRecord where
  header : Byte
  length : Byte
  command : Byte
  ack : Bool
  nak : Bool
  data : Bytes
  checksum : Byte
  nakCmd : Option Byte
  nakReason : Option Byte
  deriving DecidableEq, Repr

/-- The value an operation returns with `OK` (R75). -/
inductive Value where
  | none
  /-- IS_IDLE -/
  | idle (b : Bool)
  /-- PENDING -/
  | count (n : U16)
  /-- READ_REG -/
  | reg (v : U32)
  /-- READ_FRAME: the flag and the frame register -/
  | frame (flag : Bool) (bytes : Bytes)
  /-- ENCODE -/
  | encoded (bytes : Bytes)
  /-- DECODE -/
  | record (r : FrameRecord)
  deriving DecidableEq, Repr

/-- The result of a step (R75, R201). -/
inductive Result where
  | ok (v : Value)
  | raise (e : ErrCode)
  deriving DecidableEq, Repr

/-- `reason` of EV_FAILED (R204). -/
inductive FailReason where
  | txFail
  | retriesExhausted
  deriving DecidableEq, Repr

/-- `reason` of EV_CLEARED and of `SessionClear` (R204, R207). -/
inductive ClearReason where
  | host
  | txFail
  | retriesExhausted
  deriving DecidableEq, Repr

/-- The events (R204). -/
inductive Event where
  | transmitted (tag : Option U16) (attempt : U16)
  | complete (tag : Option U16) (nak : Bool) (attempt : U16) (tx rx : Bytes)
  | timeout (tag : Option U16) (attempt : U16)
  | failed (tag : Option U16) (reason : FailReason) (attempt : U16)
  | cleared (reason : ClearReason)
  | frameError (tag : Option U16) (code : ErrCode)
  deriving DecidableEq, Repr

/-- What reaches the block from outside, in order (R9, R213): a request at the host port, or bytes on the wire. -/
inductive Input where
  | request (bytes : Bytes)
  | wire (bytes : Bytes)
  deriving DecidableEq, Repr

/-- A byte in `RXIN` (R120), and whether it was received while the bus was held low: such bytes are discarded and never
framed (R127, D22, log entry 19). -/
structure Received where
  byte : Byte
  inBreak : Bool
  deriving DecidableEq, Repr

/-- What the last step of the block put on its output ports (R204, R213): its result, its ordered events, and the
frames it presented on the transmit port. The block does not store these: each step begins with none. -/
structure Out where
  result : Option Result
  events : List Event
  sent : List Bytes
  deriving DecidableEq, Repr

def Out.empty : Out where
  result := none
  events := []
  sent := []

structure State where
  /-- the parameters of R5, which no step changes -/
  par : Params
  /-- `QSTATE` (R20) -/
  qstate : BitVec 3
  /-- `ATTEMPT` (R21) -/
  attempt : U16
  /-- `TIMER_START` (R22) -/
  timerStart : U32
  /-- `TIMER_DUR` (R22) -/
  timerDur : U32
  /-- `SPACING_ARMED` (R23) -/
  spacingArmed : Bool
  /-- `SPACING_START` (R23) -/
  spacingStart : U32
  /-- `LINE_BREAK` (R24) -/
  lineBreak : Bool
  /-- `PQ` (R25), oldest entry first; `PQ.count` is its length -/
  pq : List Entry
  /-- `NQ` (R25) -/
  nq : List Entry
  /-- the in-flight slot (R26) -/
  slot : InFlight
  /-- `CFG_SPACING_MS` (R28) -/
  cfgSpacing : U32
  /-- `CFG_TIMEOUT_MS` (R28) -/
  cfgTimeout : U32
  /-- `CFG_BREAK_MS` (R28) -/
  cfgBreak : U32
  /-- `CFG_MAX_RETRIES` (R29) -/
  cfgMaxRetries : BitVec 8
  /-- `CFG_CAP_P` (R30) -/
  cfgCapP : U16
  /-- `CFG_CAP_N` (R30) -/
  cfgCapN : U16
  /-- `FR_PHASE` (R31) -/
  frPhase : BitVec 2
  /-- `FR_BUF` (R31) -/
  frBuf : Bytes
  /-- `FR_COUNT` (R31) -/
  frCount : U16
  /-- `FR_DECL_LEN` (R31) -/
  frDeclLen : BitVec 8
  /-- `RX_DONE` (R32) -/
  rxDone : Bool
  /-- `TX_DONE` (R32) -/
  txDone : Bool
  /-- `RX_FRAME` (R32) -/
  rxFrame : Bytes
  /-- `TX_FRAME` (R32) -/
  txFrame : Bytes
  /-- `RXIN` (R120): the line environment's received-byte FIFO, oldest byte first -/
  rxin : List Received
  /-- the line environment's scripted answers `tx_ok` to the coming transmissions (R164), the next one first -/
  txAnswers : List Bool
  /-- the model's own: how many answers have been drawn from `Config.freeTxOk` -/
  txDraws : Nat
  /-- what is still to reach the block from outside (R9), the next one first -/
  inbox : List Input
  /-- the output ports after the last step -/
  out : Out
  deriving DecidableEq, Repr

/-- Why the machine stops. -/
inductive Fault where
  /-- Raised by every step of the block in a state whose `QSTATE` is 5, 6 or 7: "A state with a reserved value has no
  step" (U6). Safe: no reachable state has such a value. -/
  | reservedQState
  /-- Raised by every step of the block in a state whose `FR_PHASE` is 3 (U7). Safe, for the same reason. -/
  | reservedFrPhase
  deriving DecidableEq, Repr

/-- Why an instruction has no meaning. -/
inductive Refusal where
  /-- Raised by an arm of `exec` whose instruction has no meaning yet (no arm does). Safe. -/
  | notModelled (mnemonic : String)
  deriving DecidableEq, Repr

/-- The state after reset of an engine built with the parameters `p` (R35, R230). The inputs are the environment's:
nothing received, nothing scripted, nothing pending (R232). -/
def State.resetOf (p : Params) : State where
  par := p
  qstate := qIdle
  attempt := 0
  timerStart := 0
  timerDur := 0
  spacingArmed := false
  spacingStart := 0
  lineBreak := false
  pq := []
  nq := []
  slot := InFlight.empty
  cfgSpacing := p.resetSpacing
  cfgTimeout := p.resetTimeout
  cfgBreak := p.resetBreak
  cfgMaxRetries := p.resetMaxRetries
  cfgCapP := BitVec.ofNat 16 p.qdepthP
  cfgCapN := BitVec.ofNat 16 p.qdepthN
  frPhase := frIdle
  frBuf := []
  frCount := 0
  frDeclLen := 0
  rxDone := false
  txDone := false
  rxFrame := []
  txFrame := []
  rxin := []
  txAnswers := []
  txDraws := 0
  inbox := []
  out := Out.empty

/-- The state after reset, for the parameters log entry 1 names. -/
def State.reset : State := State.resetOf Config.params

end Sys2Proof.Machine
end

