-- ==== Sys2Proof/Machine/Ops.lean ====
section
/-! DEFINITION. The shared operations: the frame of one step (its outputs, its result, the reserved codes that stop
it), the queue primitives of R52, the transmit and receive ports, and `SessionClear` (R207). The block has no trap
entry, no saved context and no return (R203): `failSession` and `sessionClear` are its one recovery action, "the
analogue of trap entry to a fixed handler". -/

namespace Sys2Proof.Machine

open Host (Outcome)

/-- A step begins with empty outputs: results and events are handed to the host and not stored (R204). -/
def State.begin (s : State) : State := { s with out := Out.empty }

/-- `emit` (R8): appends to this step's ordered event output. -/
def State.emit (s : State) (e : Event) : State :=
  { s with out := { s.out with events := s.out.events ++ [e] } }

/-- The result of the step (R75). -/
def State.setResult (s : State) (r : Result) : State := { s with out := { s.out with result := some r } }

/-- A state with a reserved value has no step (U6, U7). -/
def whenCodesLegal (s : State) (o : Outcome State Fault Refusal) : Outcome State Fault Refusal :=
  if 4 < s.qstate.toNat then .fault .reservedQState
  else if 2 < s.frPhase.toNat then .fault .reservedFrPhase
  else o

/-- What a step leaves: after `return v` the state the operation wrote and `OK` with `v`; after `raise E` nothing but
the code, since "a raised operation changes no state" (R8, R201). -/
def finish (s : State) : Except ErrCode (State × Value) → State
  | .ok (s', v) => s'.setResult (.ok v)
  | .error e => s.setResult (.raise e)

/-- One atomic step of the block (R55): a host operation or POLL as a function of the state it finds. -/
def runOp (op : State → Except ErrCode (State × Value)) (s : State) : Outcome State Fault Refusal :=
  whenCodesLegal s (.next (finish s.begin (op s.begin)))

/-- A request that is refused before any operation runs (R75, R77): its code, no event, no state change. -/
def refuseRequest (e : ErrCode) (s : State) : Outcome State Fault Refusal := runOp (fun _ => .error e) s

/-- The queue a selector names. -/
def State.queue (s : State) : Queue → List Entry
  | .prio => s.pq
  | .norm => s.nq

def State.setQueue (s : State) : Queue → List Entry → State
  | .prio, q => { s with pq := q }
  | .norm, q => { s with nq := q }

/-- `Q.has_cmd(c)` (R52): byte for byte. -/
def hasCmd (c : Bytes) (q : List Entry) : Bool := q.any fun e => e.cmd == c

/-- `Q.push(e)` (R52): after the youngest entry. -/
def pushEntry (q : List Entry) (e : Entry) : List Entry := q ++ [e]

/-- `DequeueNext()` (R148): the oldest entry of PQ if there is one, else of NQ, and the queue it came from. -/
def dequeueNext (s : State) : Option (Entry × Queue × State) :=
  match s.pq, s.nq with
  | e :: rest, _ => some (e, .prio, s.setQueue .prio rest)
  | [], e :: rest => some (e, .norm, s.setQueue .norm rest)
  | [], [] => none

/-- The writes that empty the in-flight slot (R166, R207). -/
def State.clearSlot (s : State) : State := { s with slot := InFlight.empty }

/-- `SessionClear(reason)` (R207). -/
def sessionClear (reason : ClearReason) (s : State) : State :=
  { s with
    pq := []
    nq := []
    slot := InFlight.empty
    qstate := qIdle
    attempt := 0
    timerStart := 0
    timerDur := 0
    lineBreak := false
    spacingArmed := false
    spacingStart := 0
    out := { s.out with events := s.out.events ++ [.cleared reason] } }

/-- The session clear a fatal failure causes carries the failure's own reason (R204, R208). -/
def FailReason.toClear : FailReason → ClearReason
  | .txFail => .txFail
  | .retriesExhausted => .retriesExhausted

/-- A fatal error (R208): `EV_FAILED(tag, reason, attempt)`, then `SessionClear(reason)`. -/
def failSession (reason : FailReason) (s : State) : State :=
  sessionClear reason.toClear (s.emit (.failed s.slot.tag reason s.attempt))

/-- The line environment's answer to a transmission (R164): the next scripted one, else a free value (U20). -/
def drawTxOk (s : State) : Bool × State :=
  match s.txAnswers with
  | a :: rest => (a, { s with txAnswers := rest })
  | [] => (Config.freeTxOk s.txDraws, { s with txDraws := s.txDraws + 1 })

/-- `Transmit(f)` (R164): presents the whole frame on the transmit port and reads the answer `tx_ok`. -/
def transmit (f : Bytes) (s : State) : Bool × State :=
  drawTxOk { s with out := { s.out with sent := s.out.sent ++ [f] } }

/-- Bytes as `RXIN` holds them, received while the bus was held low or not. -/
def received (inBreak : Bool) (bytes : Bytes) : List Received := bytes.map fun b => { byte := b, inBreak := inBreak }

/-- Bytes received while the bus was not held low. -/
abbrev traffic (bytes : Bytes) : List Received := received false bytes

/-- Bytes that arrive on the wire (R120): the line environment appends them to `RXIN` in order. No step of the block
is taken, so no output port changes. -/
def receive (bytes : Bytes) (s : State) : State := { s with rxin := s.rxin ++ received s.lineBreak bytes }

/-- The next input, taken off the pending ones. -/
def fetch (s : State) : Option (Input × State) :=
  match s.inbox with
  | [] => none
  | i :: rest => some (i, { s with inbox := rest })

/-- The line environment's step: the bytes of one arrival are received. -/
def lineStep (bytes : Bytes) (s : State) : Outcome State Fault Refusal := .next (receive bytes s)

end Sys2Proof.Machine
end

