-- ==== Sys2Proof/Machine/Line.lean ====
section
/-! DEFINITION. The unassigned opcodes (R77, R151), and the wire-frame rows: a frame of the class arrives on the
receive path (R9 agent 3, R120). A frame is no step of the block (R2): the line environment appends its bytes to
`RXIN`, and the framer and the codec apply the class tests in a later POLL (R78, log entry 3). Each meaning builds
the bytes of its own class. -/

namespace Sys2Proof.Machine

open Host (Outcome)

/-- An unassigned opcode: `ILLEGAL_OP`, no event, no state change (R77, R151). -/
def execReservedIllegalOp (_op : Byte) (_rest : Bytes) (s : State) : Outcome State Fault Refusal :=
  refuseRequest .illegalOp s

/-- FRAME_ECHO_TX: `s[0] = TX_HEADER` (R78, R121). -/
def execFrameEchoTx (body : Bytes) (s : State) : Outcome State Fault Refusal :=
  lineStep (s.par.txHeader :: body) s

/-- FRAME_REPLY_RX: `s[0] = RX_HEADER` (R78, R121). -/
def execFrameReplyRx (body : Bytes) (s : State) : Outcome State Fault Refusal :=
  lineStep (s.par.rxHeader :: body) s

/-- FRAME_NAK: `s[2] = 0x7F`, then the data (R70, R78, R79). -/
def execFrameNak (dir : Dir) (data : Bytes) (s : State) : Outcome State Fault Refusal :=
  lineStep (encodeFrame (headerOf s.par dir) (nakCmd :: data)) s

/-- FRAME_ACK: `(s[2] & 0x80) = 0x80` (R70, R78). -/
def execFrameAck (dir : Dir) (cmd : BitVec 7) (data : Bytes) (s : State) : Outcome State Fault Refusal :=
  lineStep (encodeFrame (headerOf s.par dir) (ackCommand cmd :: data)) s

/-- FRAME_PLAIN: `(s[2] & 0x80) = 0` and `s[2] != 0x7F` (R70, R78). -/
def execFramePlain (dir : Dir) (cmd : BitVec 7) (data : Bytes) (s : State) : Outcome State Fault Refusal :=
  lineStep (encodeFrame (headerOf s.par dir) (cmd.setWidth 8 :: data)) s

end Sys2Proof.Machine
end

