-- ==== Sys2Proof/Machine/Operands.lean ====
section
/-! DEFINITION. Operand forms: the capacity and depth a queue selector names, the command string of ENCODE's operands
(R71), the registers READ_REG numbers (R33), and the frame register a direction names (R131). -/

namespace Sys2Proof.Machine

/-- `CFG_CAP_P` or `CFG_CAP_N` (R30). -/
def State.capacity (s : State) : Queue → U16
  | .prio => s.cfgCapP
  | .norm => s.cfgCapN

/-- `QDEPTH_P` or `QDEPTH_N` (R5). -/
def State.depth (s : State) : Queue → Nat
  | .prio => s.par.qdepthP
  | .norm => s.par.qdepthN

def State.setCapacity (s : State) : Queue → U16 → State
  | .prio, n => { s with cfgCapP := n }
  | .norm, n => { s with cfgCapN := n }

/-- `c = [command] ++ index? ++ payload` (R71, R101). -/
def commandString (command : Byte) (index : Option Byte) (payload : Bytes) : Bytes :=
  command :: (index.toList ++ payload)

/-- A u1 register zero-extended to 32 bits. -/
def bit32 (b : Bool) : U32 := if b then 1 else 0

/-- `Q.count` (R25): u16. -/
def queueCount (q : List Entry) : U16 := BitVec.ofNat 16 q.length

/-- The register map of R33, each value zero-extended to 32 bits; `none` for a reserved number. -/
def readRegister (s : State) (regno : Byte) : Option U32 :=
  match regno.toNat with
  | 0x00 => some s.cfgSpacing
  | 0x01 => some s.cfgTimeout
  | 0x02 => some s.cfgBreak
  | 0x03 => some (s.cfgMaxRetries.setWidth 32)
  | 0x04 => some (s.cfgCapP.setWidth 32)
  | 0x05 => some (s.cfgCapN.setWidth 32)
  | 0x08 => some (s.qstate.setWidth 32)
  | 0x09 => some (s.attempt.setWidth 32)
  | 0x0A => some ((queueCount s.pq).setWidth 32)
  | 0x0B => some ((queueCount s.nq).setWidth 32)
  | 0x0C => some (bit32 s.lineBreak)
  | 0x0D => some (bit32 s.slot.valid)
  | 0x0E => some s.timerStart
  | 0x0F => some s.timerDur
  | 0x10 => some (bit32 s.spacingArmed)
  | 0x11 => some s.spacingStart
  | 0x12 => some (s.frPhase.setWidth 32)
  | 0x13 => some (s.frCount.setWidth 32)
  | 0x14 => some (s.frDeclLen.setWidth 32)
  | 0x15 => some (bit32 s.rxDone ||| (bit32 s.txDone <<< 1))
  | _ => none

/-- The flag and the frame register of a direction (R131). -/
def frameRegister (s : State) : Dir → Bool × Bytes
  | .rx => (s.rxDone, s.rxFrame)
  | .tx => (s.txDone, s.txFrame)

end Sys2Proof.Machine
end

