-- ==== Sys2Proof/Machine/Codec.lean ====
section
/-! DEFINITION. The PacketCodec: `Decode` (R102 to R109) and the operations ENCODE (R101) and DECODE (R103). -/

namespace Sys2Proof.Machine

open Host (Outcome)

/-- The record of R109. -/
def frameRecord (s : Bytes) : FrameRecord where
  header := byteAt s 0
  length := byteAt s 1
  command := byteAt s 2
  ack := (byteAt s 2).getLsbD 7
  nak := isNakByte (byteAt s 2)
  data := (s.take (s.length - 1)).drop 3
  checksum := byteAt s (s.length - 1)
  nakCmd := if isNakByte (byteAt s 2) ∧ 5 ≤ s.length then some (byteAt s 3) else none
  nakReason := if isNakByte (byteAt s 2) ∧ 6 ≤ s.length then some (byteAt s 4) else none

/-- `min_len = some m and n < m` (R107). -/
def belowMin (minLen : Option U16) (n : Nat) : Bool :=
  match minLen with
  | some m => n < m.toNat
  | none => false

/-- An expected byte is given and differs (R105, R106). -/
def differs (expected : Option Byte) (found : Byte) : Bool :=
  match expected with
  | some e => found != e
  | none => false

/-- `Decode(s, exp_cmd, exp_idx, min_len)` (R102): the first check that fails is reported. -/
def decodeFrame (s : Bytes) (expCmd expIdx : Option Byte) (minLen : Option U16) : Except ErrCode FrameRecord :=
  if s.length < 4 then .error .decTooShort
  else if belowMin minLen s.length then .error .decMinLength
  else if (byteAt s 1).toNat ≠ s.length - 2 then .error .decLengthMismatch
  else if byteAt s (s.length - 1) ≠ xorFold (s.take (s.length - 1)) then .error .decChecksum
  else if isNakByte (byteAt s 2) then .ok (frameRecord s)
  else if differs expCmd (maskAck (byteAt s 2)) then .error .decCommandMismatch
  else if differs expIdx (byteAt s 3) then .error .decIndexMismatch
  else .ok (frameRecord s)

/-- ENCODE's check and result (R101). -/
def encodeCore (h : Byte) (c : Bytes) : Except ErrCode Bytes :=
  if 254 < c.length then .error .badArg else .ok (encodeFrame h c)

/-- ENCODE (R101). -/
def execEncodeOp (hdrSel : Dir) (command : Byte) (index : Option Byte) (payload : Bytes) (s : State) :
    Outcome State Fault Refusal :=
  runOp (fun s => (encodeCore (headerOf s.par hdrSel) (commandString command index payload)).map
    fun f => (s, .encoded f)) s

/-- DECODE (R103). -/
def execDecodeOp (bytes : Bytes) (expCmd expIdx : Option Byte) (minLen : Option U16) (s : State) :
    Outcome State Fault Refusal :=
  runOp (fun s => (decodeFrame bytes expCmd expIdx minLen).map fun r => (s, .record r)) s

end Sys2Proof.Machine
end

