-- ==== Sys2Proof/Machine/Flags.lean ====
section
/-! DEFINITION. Conditions and flags: the elapsed-time test (R161), the spacing condition (R23, R162), and the
one-shot flags of the framer (R126). -/

namespace Sys2Proof.Machine

/-- `elapsed(start, dur, now)` (R161): `((now - start) mod 2^32) >= dur`. -/
def elapsed (start dur now : U32) : Bool := dur.toNat ≤ (now - start).toNat

/-- The running sequencer interval has elapsed (R165, R171, R172). -/
def timerElapsed (s : State) (now : U32) : Bool := elapsed s.timerStart s.timerDur now

/-- The spacing condition of a dispatch (R23, R162): the current `CFG_SPACING_MS`, not a latched copy. -/
def spacingHolds (s : State) (now : U32) : Bool :=
  !s.spacingArmed || elapsed s.spacingStart s.cfgSpacing now

/-- Phase A of POLL (R126): both one-shot flags are cleared, a frame in progress is not touched. -/
def clearOneShot (s : State) : State := { s with rxDone := false, txDone := false }

end Sys2Proof.Machine
end

