-- ==== Sys2Proof/Machine/Framer.lean ====
section
/-! DEFINITION. The BusFramer and its echo filter (R121 to R128), and READ_FRAME (R131). -/

namespace Sys2Proof.Machine

open Host (Outcome)

/-- `FramerReset()` (R128). -/
def framerReset (s : State) : State := { s with frPhase := frIdle, frBuf := [], frCount := 0, frDeclLen := 0 }

/-- A header starts a frame (R121). -/
def startFrame (s : State) (phase : BitVec 2) (b : Byte) : State :=
  { s with frPhase := phase, frBuf := [b], frCount := 1 }

/-- The append of R122; the second byte is cached as the length byte. -/
def appendByte (s : State) (b : Byte) : State :=
  { s with
    frBuf := s.frBuf ++ [b]
    frCount := s.frCount + 1
    frDeclLen := if s.frCount + 1 = 2 then b else s.frDeclLen }

/-- The end test of R123: `FR_COUNT >= zext_16(FR_DECL_LEN) + 2`. -/
def frameEnds (s : State) : Bool := (s.frDeclLen.setWidth 16 + 2 : U16).toNat ≤ s.frCount.toNat

/-- The completion outputs of R124. -/
def completeFrame (s : State) : State :=
  framerReset (if s.frPhase = frAccRx then { s with rxFrame := s.frBuf, rxDone := true }
    else { s with txFrame := s.frBuf, txDone := true })

/-- `FramerByte(b)` (R124): the state after the byte, and whether a frame completed. -/
def framerByte (b : Byte) (s : State) : State × Bool :=
  if s.frPhase = frIdle then
    (if b = s.par.txHeader then startFrame s frAccTx b
      else if b = s.par.rxHeader then startFrame s frAccRx b
      else s, false)
  else if frameEnds (appendByte s b) then (completeFrame (appendByte s b), true)
  else (appendByte s b, false)

/-- The loop of R125 over the received bytes: until they are used up or one frame has completed; what is left stays
in `RXIN`. "Bytes received while `LINE_BREAK = 1` are discarded" (D22) "rather than framing them afterwards" (R127), so a
byte of a hold that a CLEAR ended before the next POLL (R249) is popped and dropped. DEDUCED (log entry 19). -/
def framerLoop : List Received → State → State
  | [], s => { s with rxin := [] }
  | r :: rest, s =>
    if r.inBreak then framerLoop rest s
    else if (framerByte r.byte s).2 then { (framerByte r.byte s).1 with rxin := rest }
    else framerLoop rest (framerByte r.byte s).1

/-- `FramerPhase()` (R125, R127): while the bus is held low every byte is discarded. -/
def framerPhase (s : State) : State := if s.lineBreak then { s with rxin := [] } else framerLoop s.rxin s

/-- READ_FRAME (R131). -/
def execReadFrame (dir : Dir) (s : State) : Outcome State Fault Refusal :=
  runOp (fun s => .ok (s, .frame (frameRegister s dir).1 (frameRegister s dir).2)) s

end Sys2Proof.Machine
end

