-- ==== Sys2Proof/Machine/Queue.lean ====
section
/-! DEFINITION. The command FIFOs and the host's queue operations: `EnqueueCore` (R142), ENQN, ENQP, CLEAR, IS_IDLE,
PENDING, SET_CAPACITY and READ_REG (R140 to R147). -/

namespace Sys2Proof.Machine

open Host (Outcome)

/-- `EnqueueCore(q, c, loop, tag)` (R142): the checks in this order, the first that fails is reported. -/
def enqueueCore (q : Queue) (c : Bytes) (loop : Bool) (tag : Option U16) (s : State) : Except ErrCode State :=
  if c.length = 0 ∨ s.par.cmdMaxBytes < c.length then .error .badArg
  else if (s.capacity q).toNat ≤ (s.queue q).length then .error .queueFull
  else if hasCmd c (s.queue q) then .error .duplicate
  else .ok (s.setQueue q (pushEntry (s.queue q) { cmd := c, loop := loop, tag := tag }))

/-- An enqueue as a step with no value (R75). -/
def enqueueOp (q : Queue) (c : Bytes) (loop : Bool) (tag : Option U16) (s : State) :
    Except ErrCode (State × Value) :=
  (enqueueCore q c loop tag s).map fun s' => (s', .none)

/-- ENQN (R140). -/
def execEnqn (c : Bytes) (loop : Bool) (tag : Option U16) (s : State) : Outcome State Fault Refusal :=
  runOp (enqueueOp .norm c loop tag) s

/-- ENQP (R141). -/
def execEnqp (c : Bytes) (loop : Bool) (tag : Option U16) (s : State) : Outcome State Fault Refusal :=
  runOp (enqueueOp .prio c loop tag) s

/-- CLEAR (R143): `SessionClear(HOST)`. -/
def execClear (s : State) : Outcome State Fault Refusal :=
  runOp (fun s => .ok (sessionClear .host s, .none)) s

/-- IS_IDLE (R144). -/
def execIsIdle (s : State) : Outcome State Fault Refusal :=
  runOp (fun s => .ok (s, .idle (s.qstate = qIdle))) s

/-- `zext_16(PQ.count + NQ.count)` (R145). -/
def pendingCount (s : State) : U16 := BitVec.ofNat 16 (s.pq.length + s.nq.length)

/-- PENDING (R145): the in-flight command is not counted. -/
def execPending (s : State) : Outcome State Fault Refusal :=
  runOp (fun s => .ok (s, .count (pendingCount s))) s

/-- SET_CAPACITY's check and write (R146). No queued entry is removed (R150). -/
def setCapacityCore (q : Queue) (n : U16) (s : State) : Except ErrCode State :=
  if s.depth q < n.toNat then .error .badArg else .ok (s.setCapacity q n)

/-- SET_CAPACITY (R146). -/
def execSetCapacity (q : Queue) (n : U16) (s : State) : Outcome State Fault Refusal :=
  runOp (fun s => (setCapacityCore q n s).map fun s' => (s', .none)) s

/-- READ_REG (R147). -/
def execReadReg (regno : Byte) (s : State) : Outcome State Fault Refusal :=
  runOp (fun s =>
    match readRegister s regno with
    | some v => .ok (s, .reg v)
    | none => .error .badArg) s

end Sys2Proof.Machine
end

