-- ==== Sys2Proof/Machine/Sequencer.lean ====
section
/-! DEFINITION. The sequencer: the five state actions (R162 to R172), POLL (R160), and the timing configuration
SET_TIMING and SET_MAX_RETRIES (R175, R176). -/

namespace Sys2Proof.Machine

open Host (Outcome)

/-- The writes of a successful transmission (R164): the event, the response timer, `SENDING`. -/
def attemptSent (now : U32) (s : State) : State :=
  { s.emit (.transmitted s.slot.tag s.attempt) with
    timerStart := now
    timerDur := s.cfgTimeout
    qstate := qSending }

/-- `StartAttempt(now)` (R164). -/
def startAttempt (now : U32) (s : State) : State :=
  match transmit s.slot.txFrame s with
  | (true, s') => attemptSent now s'
  | (false, s') => failSession .txFail s'

/-- The slot of a dispatched entry (R163): its frame is encoded once and kept. -/
def loadSlot (e : Entry) (origin : Queue) (s : State) : State :=
  { s with
    slot :=
      { valid := true
        cmd := e.cmd
        loop := e.loop
        tag := e.tag
        origin := origin
        txFrame := encodeFrame s.par.txHeader e.cmd }
    attempt := 1 }

/-- `Dispatch(now)` (R163). -/
def dispatch (now : U32) (s : State) : State :=
  match dequeueNext s with
  | some (e, origin, s') => startAttempt now (loadSlot e origin s')
  | none => s

/-- `IdleAction(now)` (R162). -/
def idleAction (now : U32) (s : State) : State :=
  if s.pq.length + s.nq.length = 0 then s
  else if spacingHolds s now then dispatch now s
  else s

/-- `LoopRequeue()` (R167): a refused re-enqueue is dropped silently. -/
def loopRequeue (s : State) : State :=
  match enqueueCore s.slot.origin s.slot.cmd true s.slot.tag s with
  | .ok s' => s'
  | .error _ => s

/-- The writes that end an exchange (R166). `TIMER_START` and `TIMER_DUR` keep their values. -/
def endExchange (now : U32) (s : State) : State :=
  { s.clearSlot with attempt := 0, qstate := qIdle, spacingArmed := true, spacingStart := now }

/-- `EV_COMPLETE` with the in-flight frame and the reply (R166). -/
def emitComplete (nak : Bool) (s : State) : State :=
  s.emit (.complete s.slot.tag nak s.attempt s.slot.txFrame s.rxFrame)

/-- `Complete(now, r)` (R166). -/
def completeExchange (now : U32) (nak : Bool) (s : State) : State :=
  endExchange now (if s.slot.loop && !nak then loopRequeue (emitComplete nak s) else emitComplete nak s)

/-- The timeout test at the end of the SENDING action (R165, R169). -/
def timeoutCheck (now : U32) (s : State) : State :=
  if timerElapsed s now then { s.emit (.timeout s.slot.tag s.attempt) with qstate := qBreakSet } else s

/-- The SENDING action's decode of the reply (R165): the expected command is `IF_CMD[0]`, no index, no minimum. In a
state no run reaches, with a command in flight that has no byte, no command is expected (log entry 7). -/
def decodeReply (s : State) : Except ErrCode FrameRecord := decodeFrame s.rxFrame s.slot.cmd.head? none none

/-- `SendingAction(now)` (R165): an accepted reply wins over an elapsed timeout, a rejected one does not stop it. -/
def sendingAction (now : U32) (s : State) : State :=
  if s.rxDone then
    match decodeReply s with
    | .ok r => completeExchange now r.nak s
    | .error code => timeoutCheck now (s.emit (.frameError s.slot.tag code))
  else timeoutCheck now s

/-- `BreakSetAction(now)` (R170). -/
def breakSetAction (now : U32) (s : State) : State :=
  { framerReset s with lineBreak := true, timerStart := now, timerDur := s.cfgBreak, qstate := qBreakReset }

/-- `BreakResetAction(now)` (R171): `TIMER_DUR` is kept. -/
def breakResetAction (now : U32) (s : State) : State :=
  if timerElapsed s now then { s with lineBreak := false, timerStart := now, qstate := qRetry } else s

/-- `ATTEMPT <- ATTEMPT + 1` (R172). -/
def countAttempt (s : State) : State := { s with attempt := s.attempt + 1 }

/-- The retry budget is used up (R172): `ATTEMPT > zext_16(CFG_MAX_RETRIES)`. -/
def retriesExhausted (s : State) : Bool := (s.cfgMaxRetries.setWidth 16 : U16).toNat < s.attempt.toNat

/-- `RetryAction(now)` (R172): the budget test comes before the retransmission (R209). -/
def retryAction (now : U32) (s : State) : State :=
  if timerElapsed s now then
    if retriesExhausted (countAttempt s) then failSession .retriesExhausted (countAttempt s)
    else startAttempt now (countAttempt s)
  else s

/-- Phase C of POLL (R160): exactly one state action, the one `QSTATE` selects when the phase begins. With a reserved
code there is none: the step has already stopped (`whenCodesLegal`). -/
def stateAction (now : U32) (s : State) : State :=
  if s.qstate = qIdle then idleAction now s
  else if s.qstate = qSending then sendingAction now s
  else if s.qstate = qBreakSet then breakSetAction now s
  else if s.qstate = qBreakReset then breakResetAction now s
  else if s.qstate = qRetry then retryAction now s
  else s

/-- Phases A and B of POLL (R160). -/
def framed (s : State) : State := framerPhase (clearOneShot s)

/-- POLL (R160): phases A, B, C; it never raises. -/
def execPoll (now : U32) (s : State) : Outcome State Fault Refusal :=
  runOp (fun s => .ok (stateAction now (framed s), .none)) s

/-- SET_TIMING (R175): no running interval changes (R177). -/
def execSetTiming (spacing timeout brk : U32) (s : State) : Outcome State Fault Refusal :=
  runOp (fun s => .ok ({ s with cfgSpacing := spacing, cfgTimeout := timeout, cfgBreak := brk }, .none)) s

/-- SET_MAX_RETRIES (R176). -/
def execSetMaxRetries (n : BitVec 8) (s : State) : Outcome State Fault Refusal :=
  runOp (fun s => .ok ({ s with cfgMaxRetries := n }, .none)) s

end Sys2Proof.Machine
end

