-- ==== Sys2Proof/Machine/Dispatch.lean ====
section
/-! DEFINITION. One arm per constructor of `Instr`. -/

namespace Sys2Proof.Machine

def exec (i : Instr) (s : State) : Host.Outcome State Fault Refusal :=
  match i with
  | .enqn c loop tag => Sys2Proof.Machine.execEnqn c loop tag s
  | .enqp c loop tag => Sys2Proof.Machine.execEnqp c loop tag s
  | .clear => Sys2Proof.Machine.execClear s
  | .isIdle => Sys2Proof.Machine.execIsIdle s
  | .pending => Sys2Proof.Machine.execPending s
  | .setTiming spacing timeout brk => Sys2Proof.Machine.execSetTiming spacing timeout brk s
  | .setMaxRetries n => Sys2Proof.Machine.execSetMaxRetries n s
  | .setCapacity q n => Sys2Proof.Machine.execSetCapacity q n s
  | .readReg regno => Sys2Proof.Machine.execReadReg regno s
  | .readFrame dir => Sys2Proof.Machine.execReadFrame dir s
  | .encodeOp hdrSel command index payload => Sys2Proof.Machine.execEncodeOp hdrSel command index payload s
  | .decodeOp bytes expCmd expIdx minLen => Sys2Proof.Machine.execDecodeOp bytes expCmd expIdx minLen s
  | .poll now => Sys2Proof.Machine.execPoll now s
  | .reservedIllegalOp op rest => Sys2Proof.Machine.execReservedIllegalOp op rest s
  | .frameEchoTx body => Sys2Proof.Machine.execFrameEchoTx body s
  | .frameReplyRx body => Sys2Proof.Machine.execFrameReplyRx body s
  | .frameNak dir data => Sys2Proof.Machine.execFrameNak dir data s
  | .frameAck dir cmd data => Sys2Proof.Machine.execFrameAck dir cmd data s
  | .framePlain dir cmd data => Sys2Proof.Machine.execFramePlain dir cmd data s

end Sys2Proof.Machine
end

