-- ==== Sys2Proof/Machine/Step.lean ====
section
/-! DEFINITION. One step of the machine: the next thing that reaches the block from outside (R9) is taken off the
inbox and run. A request at the host port is decoded and executed, or refused with `BAD_ARG` where it is no
instruction (R75, R77). Bytes on the wire run the wire-frame row they are, or are received as they stand where they
are no complete frame (noise, or a part of a frame). With nothing pending the block "holds its state unchanged"
(R216). -/

namespace Sys2Proof.Machine

open Host (Outcome)

def step (s : State) : Outcome State Fault Refusal :=
  match fetch s with
  | none => .next s
  | some (.request bytes, s') =>
    match decodeRequest bytes with
    | .ok i => exec i s'
    | .reject _ => refuseRequest .badArg s'
  | some (.wire bytes, s') =>
    match decodeWire s'.par bytes with
    | some i => exec i s'
    | none => lineStep bytes s'

/-- The request of a table word becomes the next thing that reaches the host port. A program is a list of such
inputs, loaded from outside the block (log entry 5). -/
def State.withFetchWord (s : State) (nbits w : Nat) : State :=
  { s with inbox := .request (requestBytes nbits w) :: s.inbox }

end Sys2Proof.Machine
end

