-- ==== Sys2Proof/Machine/Environment.lean ====
section
/-! DEFINITION. The duties of the environment (R243) as assumptions on the inputs: what the agents outside the block do
(R9), what the duties of time source and line depend on, and a run that goes on only while every duty is met. "A model
checks these as assumptions on its inputs": no step of the block depends on them (log entries 10, 17, 18 and 20). -/

namespace Sys2Proof.Machine

/-- One act of an agent outside the block. It says more than the block can see: the real time of a POLL and whether
the line could send a frame then, and which bytes on the wire are the echo of a transmission. -/
inductive EnvEvent where
  /-- the host issues a request other than a POLL -/
  | request (bytes : Bytes)
  /-- the block is polled at a real time, in milliseconds -/
  | poll (time : Nat) (canSend : Bool)
  /-- bytes of the echo of what the block transmitted are observed on the wire -/
  | echo (bytes : Bytes)
  /-- bytes of a frame the device sends are observed on the wire; `ends` says that no more of that frame will be,
  whether it is whole or was cut short -/
  | reply (bytes : Bytes) (ends : Bool)
  /-- bytes no agent sent are observed on the wire (R245) -/
  | noise (bytes : Bytes)
  deriving DecidableEq, Repr

/-- What the duties depend on: the real time of the last POLL, the echo that is still to be observed, and whether the
device has begun a frame that has not ended. -/
structure Environment where
  lastPoll : Option Nat
  echoOwed : Bytes
  replyOpen : Bool
  deriving DecidableEq, Repr

/-- Before the first POLL, with nothing transmitted. -/
def Environment.start : Environment where
  lastPoll := none
  echoOwed := []
  replyOpen := false

/-- `now` (R161): the real time modulo 2^32. -/
def nowAt (time : Nat) : U32 := BitVec.ofNat 32 time

/-- What the block sees of an act. -/
def EnvEvent.input (p : Params) : EnvEvent → Input
  | .request bytes => .request bytes
  | .poll time _ => .request (encode p (.poll (nowAt time)))
  | .echo bytes => .wire bytes
  | .reply bytes _ => .wire bytes
  | .noise bytes => .wire bytes

/-- Duty 1: real time does not run backwards, and less than 2^32 ms lie between two POLLs. -/
def Environment.timeAdvances (e : Environment) (time : Nat) : Bool :=
  match e.lastPoll with
  | none => true
  | some last => last ≤ time && time - last < 2 ^ 32

/-- A request that is a POLL: its time is the time source's to supply (R9), not the host's. -/
def isPollRequest (bytes : Bytes) : Bool :=
  match decodeRequest bytes with
  | .ok (.poll _) => true
  | _ => false

/-- The duties an act on a block in state `s` must meet when it happens. Duty 1: the time of a POLL. Duties 2 and 4: an
echo is the next bytes of what was transmitted, so nothing is echoed of a frame that was not sent. Duty 3: echo and
device frames come "one after the other" (C4): an echo begins only where no device frame is unfinished, and once it is
owed the device begins none before its last byte; a frame begun before the transmission may end before the echo (log
entry 18). Duty 5: while the bus is held low the receive path sees "the break condition, not traffic" (R127), which is
noise here, neither echo nor device bytes. Duty 6: one request at a time, which an act is.

DESIGN CHOICE (log entry 20): an echo byte that the UART loses or corrupts breaks duty 2 here. R120 has the environment
supply "the bytes that actually arrive"; whether duty 2 still holds then is left open. -/
def Environment.allows (e : Environment) (s : State) : EnvEvent → Bool
  | .request bytes => !isPollRequest bytes
  | .poll time _ => e.timeAdvances time
  | .echo bytes => !s.lineBreak && !e.replyOpen && bytes.isPrefixOf e.echoOwed
  | .reply _ _ => !s.lineBreak && (e.echoOwed.isEmpty || e.replyOpen)
  | .noise _ => true

/-- Duty 4: where the step from `s` to `t` presented a frame, `tx_ok` was false exactly when it could not be sent. -/
def EnvEvent.answeredTruly (s t : State) : EnvEvent → Bool
  | .poll _ canSend => t.out.sent.isEmpty || decide ((drawTxOk s).1 = canSend)
  | .request _ => true
  | .echo _ => true
  | .reply _ _ => true
  | .noise _ => true

/-- The environment after an act that took the block to `t`. Duty 2: every byte transmitted is owed as an echo. -/
def Environment.after (e : Environment) (t : State) : EnvEvent → Environment
  | .request _ => e
  | .poll time canSend =>
    { e with
      lastPoll := some time
      echoOwed := if canSend then e.echoOwed ++ t.out.sent.flatten else e.echoOwed }
  | .echo bytes => { e with echoOwed := e.echoOwed.drop bytes.length }
  | .reply _ ends => { e with replyOpen := !ends }
  | .noise _ => e

/-- The events of an act: an arrival is no step of the block and emits none. -/
def EnvEvent.emitted (t : State) : EnvEvent → List Event
  | .request _ => t.out.events
  | .poll _ _ => t.out.events
  | .echo _ => []
  | .reply _ _ => []
  | .noise _ => []

/-- One act on a machine: the environment and the state after it; `none` where it breaks a duty, or where the machine
stops. -/
def envStep (a : EnvEvent) (e : Environment) (s : State) : Option (Environment × State) :=
  if e.allows s a then
    match step { s with inbox := a.input s.par :: s.inbox } with
    | .next t => if a.answeredTruly s t then some (e.after t a, t) else none
    | .fault _ => none
    | .refused _ => none
  else none

/-- A run under the duties, with every event the block emits in it, in order. -/
def envRun : List EnvEvent → Environment → State → Option (Environment × State × List Event)
  | [], e, s => some (e, s, [])
  | a :: later, e, s =>
    (envStep a e s).bind fun x => (envRun later x.1 x.2).map fun r => (r.1, r.2.1, a.emitted x.2 ++ r.2.2)

/-- The duties of R243 hold of a run: each act meets them, and at the end no echo is missing (duty 2). -/
def dutiesMet (run : List EnvEvent) (e : Environment) (s : State) : Bool :=
  match envRun run e s with
  | some r => r.1.echoOwed.isEmpty
  | none => false

end Sys2Proof.Machine
end

