-- ==== Sys2Proof/Machine/Port.lean ====
section
/-! DEFINITION. Results and events as bytes: the result code of R76 followed by the value of R75, and the event
stream of R204. -/

namespace Sys2Proof.Machine

/-- The codes of R76. -/
def ErrCode.code : ErrCode → Byte
  | .queueFull => 0x01
  | .duplicate => 0x02
  | .badArg => 0x03
  | .illegalOp => 0x04
  | .decTooShort => 0x10
  | .decMinLength => 0x11
  | .decLengthMismatch => 0x12
  | .decChecksum => 0x13
  | .decCommandMismatch => 0x14
  | .decIndexMismatch => 0x15

def byteOfBool (b : Bool) : Byte := if b then 1 else 0

/-- `[n_hi][n_lo][bytes]` (R75, R204). -/
def countedBytes (s : Bytes) : Bytes := be16 (BitVec.ofNat 16 s.length) ++ s

/-- The value after `OK` (R75); DECODE gives `[flags][command & 0x7F]`, flags bit 0 = ACK, bit 1 = NAK. -/
def Value.bytes : Value → Bytes
  | .none => []
  | .idle b => [byteOfBool b]
  | .count n => be16 n
  | .reg v => be32 v
  | .frame flag s => byteOfBool flag :: countedBytes s
  | .encoded s => countedBytes s
  | .record r => [byteOfBool r.ack ||| (byteOfBool r.nak <<< 1), maskAck r.command]

/-- `[result code]`, then the value when the code is `OK` = 0x00 (R75, R76). -/
def Result.bytes : Result → Bytes
  | .ok v => 0x00 :: v.bytes
  | .raise e => [e.code]

/-- `[has][hi][lo]` (R204). -/
def tagBytes : Option U16 → Bytes
  | some t => 1 :: be16 t
  | none => [0, 0, 0]

/-- `reason` of EV_FAILED (R204). -/
def FailReason.code : FailReason → Byte
  | .txFail => 1
  | .retriesExhausted => 2

/-- `reason` of EV_CLEARED (R204). -/
def ClearReason.code : ClearReason → Byte
  | .host => 0
  | .txFail => 1
  | .retriesExhausted => 2

/-- `[code]` followed by the fields in table order (R204). -/
def Event.bytes : Event → Bytes
  | .transmitted tag attempt => 0x01 :: (tagBytes tag ++ be16 attempt)
  | .complete tag nak attempt tx rx =>
    0x02 :: (tagBytes tag ++ byteOfBool nak :: (be16 attempt ++ countedBytes tx ++ countedBytes rx))
  | .timeout tag attempt => 0x03 :: (tagBytes tag ++ be16 attempt)
  | .failed tag reason attempt => 0x04 :: (tagBytes tag ++ reason.code :: be16 attempt)
  | .cleared reason => [0x05, reason.code]
  | .frameError tag code => 0x06 :: (tagBytes tag ++ [code.code])

end Sys2Proof.Machine
end

