-- ==== Sys2Proof/Machine/Text.lean ====
section
/-! DEFINITION. The text syntax of rule R81: one line, as its characters, to the operation it stands for and, for a
POLL, what the line environment supplies. Bytes are two hex digits; integers are decimal unless written `0x..`. -/

namespace Sys2Proof.Machine

/-- A parsed line. `rx` and `txOk` are "environment inputs, not operands of the block" (R81). -/
structure TextLine where
  instr : Instr
  rx : Bytes
  txOk : Bool
  deriving DecidableEq, Repr

/-- The words of a line: its runs of characters other than spaces. -/
def textWords : List Char → List (List Char)
  | [] => []
  | ' ' :: cs => textWords cs
  | [c] => [[c]]
  | c :: ' ' :: cs => [c] :: textWords cs
  | c :: d :: cs =>
    match textWords (d :: cs) with
    | w :: ws => (c :: w) :: ws
    | [] => [[c]]

def hexDigit (c : Char) : Option Nat :=
  if '0'.toNat ≤ c.toNat ∧ c.toNat ≤ '9'.toNat then some (c.toNat - '0'.toNat)
  else if 'A'.toNat ≤ c.toNat ∧ c.toNat ≤ 'F'.toNat then some (c.toNat - 'A'.toNat + 10)
  else if 'a'.toNat ≤ c.toNat ∧ c.toNat ≤ 'f'.toNat then some (c.toNat - 'a'.toNat + 10)
  else none

def decDigit (c : Char) : Option Nat := (hexDigit c).filter fun d => d < 10

/-- The number digits give in a base, from the value of those already read. -/
def digitsFrom (digit : Char → Option Nat) (base acc : Nat) : List Char → Option Nat
  | [] => some acc
  | c :: cs => (digit c).bind fun d => digitsFrom digit base (acc * base + d) cs

/-- An integer: decimal unless written `0x..`. -/
def textInt : List Char → Option Nat
  | [] => none
  | ['0', 'x'] => none
  | '0' :: 'x' :: ds => digitsFrom hexDigit 16 0 ds
  | ds => digitsFrom decDigit 10 0 ds

/-- An integer that fits `w` bits. -/
def textWord (w : Nat) (cs : List Char) : Option (BitVec w) :=
  ((textInt cs).filter fun n => n < 2 ^ w).map (BitVec.ofNat w)

/-- A byte: two hex digits. -/
def textByte : List Char → Option Byte
  | [h, l] => (hexDigit h).bind fun h => (hexDigit l).map fun l => BitVec.ofNat 8 (h * 16 + l)
  | _ => none

def textBytes : List (List Char) → Option Bytes
  | [] => some []
  | w :: ws => (textByte w).bind fun b => (textBytes ws).map (b :: ·)

/-- What follows `name=` in a word of that form. -/
def valueOf : List Char → List Char → Option (List Char)
  | [], '=' :: v => some v
  | n :: ns, c :: cs => if n = c then valueOf ns cs else none
  | _, _ => none

/-- An optional keyword at the front: whether it stands there, and the words after it. -/
def optWord (kw : List Char) : List (List Char) → Bool × List (List Char)
  | w :: ws => if w = kw then (true, ws) else (false, w :: ws)
  | [] => (false, [])

/-- An optional `name=<value>` at the front; `none` where the value does not read. -/
def optValue {α : Type} (name : List Char) (read : List Char → Option α) :
    List (List Char) → Option (Option α × List (List Char))
  | w :: ws =>
    match valueOf name w with
    | some v => (read v).map fun a => (some a, ws)
    | none => some (none, w :: ws)
  | [] => some (none, [])

/-- An operation that is not POLL: the line environment supplies nothing. -/
def lineOf (i : Instr) : TextLine := { instr := i, rx := [], txOk := true }

/-- `[loop] [tag=<u16>] <byte> <byte>*` -/
def textEnqueue (f : Bytes → Bool → Option U16 → Instr) (ws : List (List Char)) : Option TextLine :=
  (optValue ['t', 'a', 'g'] (textWord 16) (optWord ['l', 'o', 'o', 'p'] ws).2).bind fun x =>
    match textBytes x.2 with
    | some (b :: bs) => some (lineOf (f (b :: bs) (optWord ['l', 'o', 'o', 'p'] ws).1 x.1))
    | _ => none

/-- `[rx] <command> [idx=<byte>] <payload byte>*` -/
def textEncode (ws : List (List Char)) : Option TextLine :=
  match (optWord ['r', 'x'] ws).2 with
  | [] => none
  | cmd :: rest =>
    (textByte cmd).bind fun cmd =>
      (optValue ['i', 'd', 'x'] textByte rest).bind fun x =>
        (textBytes x.2).map fun payload =>
          lineOf (.encodeOp (if (optWord ['r', 'x'] ws).1 then .rx else .tx) cmd x.1 payload)

/-- `[cmd=<byte>] [idx=<byte>] [min=<n>] <byte>*` -/
def textDecode (ws : List (List Char)) : Option TextLine :=
  (optValue ['c', 'm', 'd'] textByte ws).bind fun c =>
    (optValue ['i', 'd', 'x'] textByte c.2).bind fun i =>
      (optValue ['m', 'i', 'n'] (textWord 16) i.2).bind fun m =>
        (textBytes m.2).map fun s => lineOf (.decodeOp s c.1 i.1 m.1)

/-- The bytes of `rx=<byte>*`: the first may stand right after the `=`; then an optional `txfail`. -/
def textRx (ws : List (List Char)) : Option (Bytes × Bool) :=
  let fail := ws.getLast? = some ['t', 'x', 'f', 'a', 'i', 'l']
  match (if fail then ws.dropLast else ws) with
  | [] => some ([], !fail)
  | w :: rest =>
    (valueOf ['r', 'x'] w).bind fun v =>
      (textBytes (if v = [] then rest else v :: rest)).map fun bs => (bs, !fail)

/-- `<now_ms> [rx=<byte>*] [txfail]` -/
def textPoll : List (List Char) → Option TextLine
  | [] => none
  | now :: ws =>
    (textWord 32 now).bind fun now =>
      (textRx ws).map fun x => { instr := .poll now, rx := x.1, txOk := x.2 }

/-- `P|N` -/
def textQueue : List Char → Option Queue
  | ['P'] => some .prio
  | ['N'] => some .norm
  | _ => none

/-- `RX|TX` -/
def textDir : List Char → Option Dir
  | ['R', 'X'] => some .rx
  | ['T', 'X'] => some .tx
  | _ => none

/-- An operation without operands. -/
def textBare (i : Instr) : List (List Char) → Option TextLine
  | [] => some (lineOf i)
  | _ => none

/-- An operation with one operand. -/
def textOne {α : Type} (read : List Char → Option α) (f : α → Instr) : List (List Char) → Option TextLine
  | [w] => (read w).map fun a => lineOf (f a)
  | _ => none

def textSetTiming : List (List Char) → Option TextLine
  | [s, t, b] =>
    (textWord 32 s).bind fun s => (textWord 32 t).bind fun t => (textWord 32 b).map fun b => lineOf (.setTiming s t b)
  | _ => none

def textSetCapacity : List (List Char) → Option TextLine
  | [q, n] => (textQueue q).bind fun q => (textWord 16 n).map fun n => lineOf (.setCapacity q n)
  | _ => none

/-- One line of the text syntax, by its words; `none` where it is no line of R81. -/
def parseWords : List (List Char) → Option TextLine
  | ['E', 'N', 'Q', 'N'] :: ws => textEnqueue .enqn ws
  | ['E', 'N', 'Q', 'P'] :: ws => textEnqueue .enqp ws
  | ['C', 'L', 'E', 'A', 'R'] :: ws => textBare .clear ws
  | ['I', 'S', '_', 'I', 'D', 'L', 'E'] :: ws => textBare .isIdle ws
  | ['P', 'E', 'N', 'D', 'I', 'N', 'G'] :: ws => textBare .pending ws
  | ['S', 'E', 'T', '_', 'T', 'I', 'M', 'I', 'N', 'G'] :: ws => textSetTiming ws
  | ['S', 'E', 'T', '_', 'M', 'A', 'X', '_', 'R', 'E', 'T', 'R', 'I', 'E', 'S'] :: ws =>
    textOne (textWord 8) .setMaxRetries ws
  | ['S', 'E', 'T', '_', 'C', 'A', 'P', 'A', 'C', 'I', 'T', 'Y'] :: ws => textSetCapacity ws
  | ['R', 'E', 'A', 'D', '_', 'R', 'E', 'G'] :: ws => textOne (textWord 8) .readReg ws
  | ['R', 'E', 'A', 'D', '_', 'F', 'R', 'A', 'M', 'E'] :: ws => textOne textDir .readFrame ws
  | ['E', 'N', 'C', 'O', 'D', 'E'] :: ws => textEncode ws
  | ['D', 'E', 'C', 'O', 'D', 'E'] :: ws => textDecode ws
  | ['P', 'O', 'L', 'L'] :: ws => textPoll ws
  | _ => none

def parseLine (line : List Char) : Option TextLine := parseWords (textWords line)

/-- A line run on a machine: the line environment's bytes reach `RXIN` before the operation (R81), its answer stands
first among the scripted ones, and the request is the one R75 gives. -/
def TextLine.load (l : TextLine) (s : State) : State :=
  { s with
    txAnswers := [l.txOk]
    inbox := (if l.rx = [] then [] else [.wire l.rx]) ++ [.request (encode s.par l.instr)] }

end Sys2Proof.Machine
end

