-- ==== Sys2Proof/Safety.lean ====
section
/-! DEFINITION. What counts as a safe state and a safe run, in the terms claims use: the invariants of R34 with the
field legality of R5, R26, R27 and R30 that they rest on, the codes that stop the machine (U6, U7), and the agreement
of two states outside the output ports (R61, R201). -/

namespace Sys2Proof.Machine

/-- No reserved code stands in `QSTATE` or `FR_PHASE` (R34 item 9). -/
abbrev State.CodesLegal (s : State) : Prop := s.qstate.toNat ≤ 4 ∧ s.frPhase.toNat ≤ 2

/-- A queue entry's command has 1 to `CMD_MAX_BYTES` bytes (R27). -/
abbrev State.CommandLegal (s : State) (c : Bytes) : Prop := 1 ≤ c.length ∧ c.length ≤ s.par.cmdMaxBytes

/-- R27 for every queued entry. -/
abbrev State.EntriesLegal (s : State) : Prop :=
  (∀ e ∈ s.pq, s.CommandLegal e.cmd) ∧ (∀ e ∈ s.nq, s.CommandLegal e.cmd)

/-- R26: a command in flight is legal and its frame is the one encoded at dispatch; an empty slot is all empty. -/
abbrev State.SlotLegal (s : State) : Prop :=
  if s.slot.valid then s.CommandLegal s.slot.cmd ∧ s.slot.txFrame = encodeFrame s.par.txHeader s.slot.cmd
  else s.slot = InFlight.empty

/-- R34 item 1: `IF_VALID = 1` if and only if `QSTATE != IDLE`. -/
abbrev State.SlotMatchesState (s : State) : Prop := s.slot.valid = true ↔ s.qstate ≠ qIdle

/-- R34 item 2: `LINE_BREAK = 1` if and only if `QSTATE = BREAK_RESET`. -/
abbrev State.BreakMatchesState (s : State) : Prop := s.lineBreak = true ↔ s.qstate = qBreakReset

/-- R34 item 3: `ATTEMPT = 0` if and only if `QSTATE = IDLE`, and it never exceeds 256. -/
abbrev State.AttemptLegal (s : State) : Prop := (s.attempt = 0 ↔ s.qstate = qIdle) ∧ s.attempt.toNat ≤ 256

/-- R34 item 4, with the legal capacities of R30 it rests on. -/
abbrev State.QueuesBounded (s : State) : Prop :=
  s.pq.length ≤ s.par.qdepthP ∧ s.nq.length ≤ s.par.qdepthN ∧
    s.cfgCapP.toNat ≤ s.par.qdepthP ∧ s.cfgCapN.toNat ≤ s.par.qdepthN

/-- R34 item 5: no queue holds two entries with equal `cmd`. -/
abbrev State.NoDuplicates (s : State) : Prop := (s.pq.map Entry.cmd).Nodup ∧ (s.nq.map Entry.cmd).Nodup

/-- R34 item 6. -/
abbrev State.FramerCounts (s : State) : Prop :=
  s.frCount.toNat = s.frBuf.length ∧ (s.frPhase = frIdle ↔ s.frCount = 0)

/-- R34 item 7: a frame in progress begins with the header of its direction. -/
abbrev State.FramerHeader (s : State) : Prop :=
  (s.frPhase = frAccTx → s.frBuf.head? = some s.par.txHeader) ∧
    (s.frPhase = frAccRx → s.frBuf.head? = some s.par.rxHeader)

/-- R34 item 8: past its length byte a frame in progress is shorter than it declares, and the length byte is cached. -/
abbrev State.FramerLength (s : State) : Prop :=
  2 ≤ s.frCount.toNat → s.frCount.toNat < s.frDeclLen.toNat + 2 ∧ s.frBuf[1]? = some s.frDeclLen

/-- The invariant of the machine: R34, and what its items rest on. -/
structure State.Inv (s : State) : Prop where
  params : s.par.Ok
  codes : s.CodesLegal
  slotMatchesState : s.SlotMatchesState
  breakMatchesState : s.BreakMatchesState
  attemptLegal : s.AttemptLegal
  queuesBounded : s.QueuesBounded
  noDuplicates : s.NoDuplicates
  entriesLegal : s.EntriesLegal
  slotLegal : s.SlotLegal
  framerCounts : s.FramerCounts
  framerHeader : s.FramerHeader
  framerLength : s.FramerLength

/-- The states agree on everything but the output ports of the last step (R201, R61: an operation without side
effects, or one that is refused). -/
abbrev SameState (s t : State) : Prop := t = { s with out := t.out }

/-- `s` after a step that returned `r` and emitted and transmitted nothing. -/
def State.answer (s : State) (r : Result) : State := { s with out := { result := some r, events := [], sent := [] } }

/-- `s` after a step that returned `OK` with no value, emitted `es` and presented `sent` on the transmit port. -/
def State.done (s : State) (es : List Event) (sent : List Bytes) : State :=
  { s with out := { result := some (.ok .none), events := es, sent := sent } }

/-- The frames an event carries have a length that fits the count fields of R204. -/
def Event.FramesFit : Event → Prop
  | .complete _ _ _ tx rx => tx.length ≤ 65535 ∧ rx.length ≤ 65535
  | .transmitted _ _ => True
  | .timeout _ _ => True
  | .failed _ _ _ => True
  | .cleared _ => True
  | .frameError _ _ => True

/-- The session after `SessionClear` (R207), whatever the outputs of the step. -/
def State.cleared (s : State) : State :=
  { s with
    pq := []
    nq := []
    slot := { valid := false, cmd := [], loop := false, tag := none, origin := .prio, txFrame := [] }
    qstate := 0
    attempt := 0
    timerStart := 0
    timerDur := 0
    lineBreak := false
    spacingArmed := false
    spacingStart := 0 }

/-- The answer to the next transmission is taken: the next scripted one, or a free draw (R164). -/
def State.answerTaken (s : State) : State :=
  { s with txAnswers := s.txAnswers.tail, txDraws := if s.txAnswers = [] then s.txDraws + 1 else s.txDraws }

/-- `tx_ok` of the next transmission (R164): the next scripted answer, or the free value. -/
def State.nextTxOk (s : State) : Bool := s.txAnswers.head?.getD (Config.freeTxOk s.txDraws)

/-- The state without the bytes of `RXIN` that were received while the bus was held low. -/
def State.forgetBreakBytes (s : State) : State := { s with rxin := s.rxin.filter fun r => !r.inBreak }

/-- A POLL, and the bytes that reach `RXIN` between the POLL before and this one. -/
structure Tick where
  rx : Bytes
  now : U32
  deriving DecidableEq, Repr

/-- One tick: the bytes arrive (R120), then the block is polled. -/
def tick (k : Tick) (s : State) : Host.Outcome State Fault Refusal :=
  exec (.poll k.now) (receive k.rx s)

/-- Ticks one after the other with nothing between them: the last state and every event, in order; `none` where one of
them does not go on. -/
def pollLog : List Tick → State → Option (State × List Event)
  | [], s => some (s, [])
  | k :: later, s =>
    match tick k s with
    | .next t => (pollLog later t).map fun r => (r.1, t.out.events ++ r.2)
    | _ => none

/-- `Decode` accepts the frame as a reply to a command with first byte `c₀` (R165). -/
def acceptsReply (c₀ : Byte) (f : Bytes) : Bool :=
  match decodeFrame f (some c₀) none none with
  | .ok _ => true
  | .error _ => false

/-- In these ticks no RX frame that completes in SENDING decodes as valid for a command with first byte `c₀` (R173). -/
def noReplyAccepted (c₀ : Byte) : List Tick → State → Bool
  | [], _ => true
  | k :: later, s =>
    match tick k s with
    | .next t => !(decide (s.qstate = 1) && t.rxDone && acceptsReply c₀ t.rxFrame) && noReplyAccepted c₀ later t
    | _ => true

/-- The POLLs of one attempt that gets no reply, any number of them (R169 to R172): those that find the response
interval running, the one that finds it elapsed, the start of the BREAK, those in the hold, its release, those in the
recovery, and the RETRY decision. -/
structure AttemptPolls where
  waiting : List Tick
  timeout : Tick
  breakSet : Tick
  holding : List Tick
  release : Tick
  recovering : List Tick
  retry : Tick
  deriving DecidableEq, Repr

def AttemptPolls.polls (a : AttemptPolls) : List Tick :=
  a.waiting ++ a.timeout :: a.breakSet :: (a.holding ++ a.release :: (a.recovering ++ [a.retry]))

/-- An interval of length `dur` from `start` (R161): it is running at each of `before` and has elapsed at `last`. -/
def EndsAt (start dur : U32) (before : List Tick) (last : Tick) : Prop :=
  (∀ k ∈ before, (k.now - start).toNat < dur.toNat) ∧ dur.toNat ≤ (last.now - start).toNat

/-- The times of successive attempts: the response interval, `timeout` long from the transmission at `start`, then the
hold and the recovery, `brk` long each. -/
def IntervalsElapse (timeout brk : U32) : U32 → List AttemptPolls → Prop
  | _, [] => True
  | start, a :: later =>
    EndsAt start timeout a.waiting a.timeout ∧ EndsAt a.breakSet.now brk a.holding a.release ∧
      EndsAt a.release.now brk a.recovering a.retry ∧ IntervalsElapse timeout brk a.retry.now later

/-- A report that a frame was dropped (R168), which changes nothing else. -/
def Event.isFrameError : Event → Bool
  | .frameError _ _ => true
  | .transmitted _ _ => false
  | .complete _ _ _ _ _ => false
  | .timeout _ _ => false
  | .failed _ _ _ => false
  | .cleared _ => false

/-- The events of the attempts `k`, `k + 1`, … of a command that gets no reply, `n` of them in all, the last one
failing the command (R173). -/
def silentEvents (tag : Option U16) : Nat → Nat → List Event
  | _, 0 => []
  | k, 1 =>
    [.timeout tag (BitVec.ofNat 16 k), .failed tag .retriesExhausted (BitVec.ofNat 16 (k + 1)),
      .cleared .retriesExhausted]
  | k, n + 2 =>
    .timeout tag (BitVec.ofNat 16 k) :: .transmitted tag (BitVec.ofNat 16 (k + 1)) :: silentEvents tag (k + 1) (n + 1)

/-- A step's outcome that goes on. -/
abbrev Goes (o : Host.Outcome State Fault Refusal) : Prop := ∃ t, o = .next t

end Sys2Proof.Machine
end

