-- ==== Sys2Proof/Certificates/Slice0/Obligations.lean ====
section
/-! DEFINITION. The statements for the provers, from the numbered rules of spec/. -/

open Sys2Proof Sys2Proof.Machine

/-! ## Requests and frames as bytes -/

/-- A few requests and frames written out from R70, R74 and R75 (95_test_vectors.md Q11, DV30, X30, X16). -/
def Obligations.SampleWordsDecode : Prop :=
  decodeRequest [0x01, 0x03, 0x02, 0x01, 0x01, 0x44] = .ok (.enqn [0x44] true (some 513)) ∧
  decodeRequest [0x02, 0x00, 0x00, 0x00, 0x01, 0x44] = .ok (.enqp [0x44] false none) ∧
  decodeRequest [0x06, 0, 0, 0, 0x64, 0, 0, 0x01, 0xF4, 0, 0, 0, 0x32] = .ok (.setTiming 100 500 50) ∧
  decodeRequest [0x08, 0x01, 0x00, 0x04] = .ok (.setCapacity .norm 4) ∧
  decodeRequest [0x0B, 0x01, 0x50, 0x05, 0x00] = .ok (.encodeOp .tx 0x50 (some 0x05) []) ∧
  decodeRequest [0x0C, 0x03, 0x44, 0x99, 0x00, 0x00, 0x00, 0x01, 0x4F] =
    .ok (.decodeOp [0x4F] (some 0x44) (some 0x99) none) ∧
  decodeRequest [0x0D, 0x00, 0x00, 0x03, 0xE8] = .ok (.poll 1000) ∧
  decodeRequest [0x0E] = .ok (.reservedIllegalOp 0x0E []) ∧
  commandRow Config.params [0x4F, 0x04, 0x7F, 0x50, 0x33, 0x57] = some (.frameNak .rx [0x50, 0x33])

/-- Decoding the bytes of any well-formed request gives it back, with every operand (R75). -/
def Obligations.RequestRoundTrip : Prop :=
  ∀ (p : Params) (i : Instr), WellFormed i = true → i.isRequest = true → decodeRequest (encode p i) = .ok i

/-- The decoder of the host port gives only well-formed requests. -/
def Obligations.DecodedRequestWellFormed : Prop :=
  ∀ (bs : Bytes) (i : Instr), decodeRequest bs = .ok i → WellFormed i = true ∧ i.isRequest = true

/-- The bytes of a well-formed wire frame fall under its own class: the framer's by the header byte, the codec's by
the command byte (R78). The rows as arrivals on the wire are log entry 3. -/
def Obligations.WireFrameRoundTrip : Prop :=
  ∀ (p : Params) (i : Instr), p.Ok → WellFormed i = true → i.isRequest = false →
    headerRow p (encode p i) = some i ∨ commandRow p (encode p i) = some i

/-- No frame is under two classes of the codec, and none under two of the framer (R78): where the tests of R78 hold of
the bytes, the decoders give that class. -/
def Obligations.FrameClassTests : Prop :=
  ∀ (p : Params) (h l c x : Byte) (data : Bytes), p.Ok →
    l.toNat = data.length + 2 → xorFold (h :: l :: c :: data) = x →
    let s := h :: l :: c :: (data ++ [x])
    (h = p.txHeader → headerRow p s = some (.frameEchoTx s.tail)) ∧
    (h = p.rxHeader → headerRow p s = some (.frameReplyRx s.tail)) ∧
    (∀ d, headerOf p d = h → c = 0x7F → commandRow p s = some (.frameNak d data)) ∧
    (∀ d, headerOf p d = h → c.getLsbD 7 = true → commandRow p s = some (.frameAck d (c.setWidth 7) data)) ∧
    (∀ d, headerOf p d = h → c.getLsbD 7 = false → c ≠ 0x7F → commandRow p s = some (.framePlain d (c.setWidth 7) data))

/-! ## The step -/

/-- A request at the host port that decodes to an instruction runs it, and so do bytes on the wire. That the two come
from one list of inputs, and that a step with nothing pending changes nothing, is the model's (log entries 3 and 5).
Bytes that arrive are appended to `RXIN` (R120), each with a mark that says whether the bus was held low, which is the
model's too (log entry 19). -/
def Obligations.StepRunsDecodedInstruction : Prop :=
  ∀ (s : State) (bs : Bytes) (rest : List Input) (i : Instr),
    (s.inbox = .request bs :: rest → decodeRequest bs = .ok i → step s = exec i { s with inbox := rest }) ∧
    (s.inbox = .wire bs :: rest → decodeWire s.par bs = some i → step s = exec i { s with inbox := rest }) ∧
    (s.inbox = .wire bs :: rest → decodeWire s.par bs = none →
      step s = .next { s with inbox := rest, rxin := s.rxin ++ bs.map fun b => ⟨b, s.lineBreak⟩ }) ∧
    (s.inbox = [] → step s = .next s)

/-- R77 as a step: an unassigned opcode is answered `ILLEGAL_OP`; a wrong length, a reserved flag bit, a selector out
of range or a reserved register number is answered `BAD_ARG`; nothing else changes and no event is emitted. -/
def Obligations.ReservedEncodingsRefused : Prop :=
  ∀ (s : State) (op : Byte) (operands : Bytes) (rest : List Input),
    s.CodesLegal → s.inbox = .request (op :: operands) :: rest →
    let refusedWith := fun e => step s = .next (State.answer { s with inbox := rest } (.raise e))
    (unassignedOpcode op = true → refusedWith .illegalOp) ∧
    (unassignedOpcode op = false → (op :: operands).length ≠ requestLength (op :: operands) → refusedWith .badArg) ∧
    (op = 0x01 ∨ op = 0x02 ∨ op = 0x0B → 4 ≤ operands.length → (byteAt operands 0) &&& 0xFC ≠ 0 → refusedWith .badArg) ∧
    (op = 0x0C → 7 ≤ operands.length → (byteAt operands 0) &&& 0xF8 ≠ 0 → refusedWith .badArg) ∧
    (op = 0x08 ∨ op = 0x0A → 1 ≤ operands.length → 2 ≤ (byteAt operands 0).toNat → refusedWith .badArg) ∧
    (op = 0x09 → ∀ r, operands = [r] → r = 0x06 ∨ r = 0x07 ∨ 0x16 ≤ r.toNat → refusedWith .badArg)

/-- A state with a reserved value has no step (U6, U7): every operation of the block stops there. That the stop is a
fault, and which code is tested first, is the model's (log entry 8). -/
def Obligations.ReservedCodeStops : Prop :=
  ∀ (s : State) (i : Instr), i.isRequest = true →
    (4 < s.qstate.toNat → exec i s = .fault .reservedQState) ∧
    (s.qstate.toNat ≤ 4 → 2 < s.frPhase.toNat → exec i s = .fault .reservedFrPhase)

/-- Without reserved codes every instruction and every step goes on. -/
def Obligations.LegalStateGoesOn : Prop :=
  ∀ s : State, s.CodesLegal → (∀ i : Instr, Goes (exec i s)) ∧ Goes (step s)

/-! ## Results and events as bytes -/

/-- R76: the code of every result, and no code beside the table's. -/
def Obligations.ResultCodes : Prop :=
  (∀ v : Value, (Result.ok v).bytes.head? = some 0x00) ∧
  (Result.raise .queueFull).bytes = [0x01] ∧ (Result.raise .duplicate).bytes = [0x02] ∧
  (Result.raise .badArg).bytes = [0x03] ∧ (Result.raise .illegalOp).bytes = [0x04] ∧
  (Result.raise .decTooShort).bytes = [0x10] ∧ (Result.raise .decMinLength).bytes = [0x11] ∧
  (Result.raise .decLengthMismatch).bytes = [0x12] ∧ (Result.raise .decChecksum).bytes = [0x13] ∧
  (Result.raise .decCommandMismatch).bytes = [0x14] ∧ (Result.raise .decIndexMismatch).bytes = [0x15]

/-- The event stream (R204) loses nothing: the bytes of a list of events determine the list, for frames a count field
can hold. -/
def Obligations.EventBytesDetermineEvent : Prop :=
  ∀ es fs : List Event, (∀ e ∈ es, e.FramesFit) → (∀ f ∈ fs, f.FramesFit) →
    (es.map Event.bytes).flatten = (fs.map Event.bytes).flatten → es = fs

/-! ## Queues -/

/-- `EnqueueCore` (R142) through ENQN (R140) and ENQP (R141): the checks in order, and the entry at the tail. -/
def Obligations.EnqueueChecksInOrder : Prop :=
  ∀ (s : State) (c : Bytes) (loop : Bool) (tag : Option U16), s.CodesLegal →
    exec (.enqn c loop tag) s = .next
      (if c.length = 0 ∨ s.par.cmdMaxBytes < c.length then s.answer (.raise .badArg)
       else if s.cfgCapN.toNat ≤ s.nq.length then s.answer (.raise .queueFull)
       else if ∃ e ∈ s.nq, e.cmd = c then s.answer (.raise .duplicate)
       else State.answer { s with nq := s.nq ++ [{ cmd := c, loop := loop, tag := tag }] } (.ok .none)) ∧
    exec (.enqp c loop tag) s = .next
      (if c.length = 0 ∨ s.par.cmdMaxBytes < c.length then s.answer (.raise .badArg)
       else if s.cfgCapP.toNat ≤ s.pq.length then s.answer (.raise .queueFull)
       else if ∃ e ∈ s.pq, e.cmd = c then s.answer (.raise .duplicate)
       else State.answer { s with pq := s.pq ++ [{ cmd := c, loop := loop, tag := tag }] } (.ok .none))

/-- R149: the second enqueue of a command into the same queue leaves it as it was, whatever its `loop` and `tag`. -/
def Obligations.SecondEnqueueLeavesQueue : Prop :=
  ∀ (s t u : State) (c : Bytes) (l₁ l₂ : Bool) (t₁ t₂ : Option U16), s.CodesLegal →
    (exec (.enqn c l₁ t₁) s = .next t → exec (.enqn c l₂ t₂) t = .next u → u.nq = t.nq) ∧
    (exec (.enqp c l₁ t₁) s = .next t → exec (.enqp c l₂ t₂) t = .next u → u.pq = t.pq)

/-- CLEAR (R143) in any state of the sequencer. -/
def Obligations.ClearEmptiesSession : Prop :=
  ∀ s : State, s.CodesLegal → exec .clear s = .next (s.cleared.done [.cleared .host] [])

/-- IS_IDLE (R144) and PENDING (R145). -/
def Obligations.StatusOperations : Prop :=
  ∀ s : State, s.CodesLegal →
    exec .isIdle s = .next (s.answer (.ok (.idle (s.qstate == 0)))) ∧
    exec .pending s = .next (s.answer (.ok (.count (BitVec.ofNat 16 (s.pq.length + s.nq.length)))))

/-- SET_CAPACITY (R146): the register, or `BAD_ARG` above the storage depth; no entry is removed (R150). -/
def Obligations.SetCapacityWritesOneRegister : Prop :=
  ∀ (s : State) (n : U16), s.CodesLegal →
    exec (.setCapacity .prio n) s = .next
      (if n.toNat > s.par.qdepthP then s.answer (.raise .badArg) else State.answer { s with cfgCapP := n } (.ok .none)) ∧
    exec (.setCapacity .norm n) s = .next
      (if n.toNat > s.par.qdepthN then s.answer (.raise .badArg) else State.answer { s with cfgCapN := n } (.ok .none))

/-- READ_REG (R147) over the register table of R33. -/
def Obligations.ReadRegisterTable : Prop :=
  ∀ (s : State) (regno : Byte), s.CodesLegal →
    (∀ v : U32,
      (regno, v) ∈
        [ (0x00, s.cfgSpacing), (0x01, s.cfgTimeout), (0x02, s.cfgBreak), (0x03, s.cfgMaxRetries.setWidth 32),
          (0x04, s.cfgCapP.setWidth 32), (0x05, s.cfgCapN.setWidth 32), (0x08, s.qstate.setWidth 32),
          (0x09, s.attempt.setWidth 32), (0x0A, (BitVec.ofNat 16 s.pq.length).setWidth 32),
          (0x0B, (BitVec.ofNat 16 s.nq.length).setWidth 32), (0x0C, if s.lineBreak then 1 else 0),
          (0x0D, if s.slot.valid then 1 else 0), (0x0E, s.timerStart), (0x0F, s.timerDur),
          (0x10, if s.spacingArmed then 1 else 0), (0x11, s.spacingStart), (0x12, s.frPhase.setWidth 32),
          (0x13, s.frCount.setWidth 32), (0x14, s.frDeclLen.setWidth 32),
          (0x15, (if s.rxDone then 1 else 0) + (if s.txDone then 2 else 0)) ] →
      exec (.readReg regno) s = .next (s.answer (.ok (.reg v)))) ∧
    (regno = 0x06 ∨ regno = 0x07 ∨ 0x16 ≤ regno.toNat →
      exec (.readReg regno) s = .next (s.answer (.raise .badArg)))

/-- READ_FRAME (R131): the flag and the frame register of the direction; nothing is cleared. -/
def Obligations.ReadFrameReturnsRegister : Prop :=
  ∀ s : State, s.CodesLegal →
    exec (.readFrame .rx) s = .next (s.answer (.ok (.frame s.rxDone s.rxFrame))) ∧
    exec (.readFrame .tx) s = .next (s.answer (.ok (.frame s.txDone s.txFrame)))

/-- SET_TIMING (R175) and SET_MAX_RETRIES (R176): the configuration registers and nothing else, the running interval
not among them. -/
def Obligations.TimingConfiguration : Prop :=
  ∀ (s : State) (spacing timeout brk : U32) (n : BitVec 8), s.CodesLegal →
    exec (.setTiming spacing timeout brk) s = .next
      (State.answer { s with cfgSpacing := spacing, cfgTimeout := timeout, cfgBreak := brk } (.ok .none)) ∧
    exec (.setMaxRetries n) s = .next (State.answer { s with cfgMaxRetries := n } (.ok .none))

/-- R59: no host operation but CLEAR changes a queued entry or the command in flight; an enqueue only adds behind. -/
def Obligations.HostOperationsKeepCommands : Prop :=
  ∀ (s t : State) (i : Instr), (∀ now, i ≠ .poll now) → i ≠ .clear → exec i s = .next t →
    t.slot = s.slot ∧ s.pq <+: t.pq ∧ s.nq <+: t.nq

/-! ## Codec -/

/-- ENCODE (R101). -/
def Obligations.EncodeBuildsFrame : Prop :=
  ∀ (s : State) (dir : Dir) (command : Byte) (index : Option Byte) (payload : Bytes), s.CodesLegal →
    let c := command :: (index.toList ++ payload)
    let h := match dir with
      | .tx => s.par.txHeader
      | .rx => s.par.rxHeader
    let head := [h, BitVec.ofNat 8 (c.length + 1)] ++ c
    exec (.encodeOp dir command index payload) s = .next
      (if 254 < c.length then s.answer (.raise .badArg)
       else s.answer (.ok (.encoded (head ++ [head.foldl (· ^^^ ·) 0]))))

/-- DECODE (R103): the checks of R102 in order, and the record of R109. -/
def Obligations.DecodeChecksInOrder : Prop :=
  ∀ (s : State) (b : Bytes) (cmd idx : Option Byte) (minLen : Option U16), s.CodesLegal →
    let n := b.length
    let at' := fun i => b.getD i 0
    let record : FrameRecord :=
      { header := at' 0, length := at' 1, command := at' 2, ack := (at' 2).getLsbD 7, nak := at' 2 == 0x7F,
        data := (b.drop 3).take (n - 4), checksum := at' (n - 1),
        nakCmd := if at' 2 = 0x7F ∧ 5 ≤ n then some (at' 3) else none,
        nakReason := if at' 2 = 0x7F ∧ 6 ≤ n then some (at' 4) else none }
    exec (.decodeOp b cmd idx minLen) s = .next (s.answer
      (if n < 4 then .raise .decTooShort
       else if ∃ m, minLen = some m ∧ n < m.toNat then .raise .decMinLength
       else if (at' 1).toNat ≠ n - 2 then .raise .decLengthMismatch
       else if at' (n - 1) ≠ (b.take (n - 1)).foldl (· ^^^ ·) 0 then .raise .decChecksum
       else if at' 2 = 0x7F then .ok (.record record)
       else if ∃ e, cmd = some e ∧ at' 2 &&& 0x7F ≠ e then .raise .decCommandMismatch
       else if ∃ x, idx = some x ∧ at' 3 ≠ x then .raise .decIndexMismatch
       else .ok (.record record)))

/-- R100: the bytes of a frame, and, as the rule derives, its length and that its bytes XOR to 0x00; and the rule's
example. -/
def Obligations.EncodedFrameWellFormed : Prop :=
  (∀ (h : Byte) (c : Bytes), 1 ≤ c.length → c.length ≤ 254 →
    encodeFrame h c = [h, BitVec.ofNat 8 (c.length + 1)] ++ c ++
      [([h, BitVec.ofNat 8 (c.length + 1)] ++ c).foldl (· ^^^ ·) 0] ∧
    (encodeFrame h c).length = c.length + 3 ∧ (encodeFrame h c).foldl (· ^^^ ·) 0 = 0 ∧
    (byteAt (encodeFrame h c) 1).toNat = c.length + 1) ∧
  encodeFrame 0xF4 [0x50, 0x05] = [0xF4, 0x03, 0x50, 0x05, 0xA2]

/-- R110, which the spec derives from R100 and R102: the round-trip law of the codec, and its exceptions. -/
def Obligations.CodecRoundTrip : Prop :=
  ∀ (h k : Byte) (index : Option Byte) (payload : Bytes), (commandString k index payload).length ≤ 254 →
    let f := encodeFrame h (commandString k index payload)
    (k.toNat ≤ 0x7E → ∃ r, decodeFrame f (some k) index none = .ok r ∧ r.command = k ∧
      r.data = index.toList ++ payload ∧ r.ack = false ∧ r.nak = false) ∧
    (k = 0x7F → ∃ r, decodeFrame f (some k) index none = .ok r ∧ r.nak = true) ∧
    (0x80 ≤ k.toNat → decodeFrame f (some k) index none = .error .decCommandMismatch) ∧
    (∃ r, decodeFrame f none none none = .ok r ∧ r.command = k ∧ r.data = index.toList ++ payload)

/-- R111, which the spec derives from R102: the length law. -/
def Obligations.WrongLengthRejected : Prop :=
  ∀ (b : Bytes) (cmd idx : Option Byte) (minLen : Option U16),
    (b.length < 4 → decodeFrame b cmd idx minLen = .error .decTooShort) ∧
    (4 ≤ b.length → (byteAt b 1).toNat ≠ b.length - 2 →
      decodeFrame b cmd idx minLen = .error .decLengthMismatch ∨
        ((∃ m, minLen = some m ∧ b.length < m.toNat) ∧ decodeFrame b cmd idx minLen = .error .decMinLength))

/-- R112, which the spec derives from R73 and R102: the single-bit-error law, with no exception. -/
def Obligations.SingleBitErrorRejected : Prop :=
  ∀ (b : Bytes) (cmd idx : Option Byte) (minLen : Option U16) (r : FrameRecord) (i k : Nat),
    decodeFrame b cmd idx minLen = .ok r → i < b.length → k < 8 →
    let b' := b.set i (byteAt b i ^^^ (1#8 <<< k))
    decodeFrame b' cmd idx minLen = .error (if i = 1 then .decLengthMismatch else .decChecksum)

/-! ## Framer -/

/-- R127: while the bus is held low phase B discards every received byte and leaves the framer as it is; so does the
whole POLL, but for the framer reset of the BREAK_SET action. Bytes that arrive in the hold are appended to `RXIN` (R120)
and marked as the hold's (log entry 19), and no request does anything with them but discard them, also where a CLEAR
releases the bus before the next POLL (R249): without them it does the same. -/
def Obligations.BreakDiscardsBytes : Prop :=
  (∀ (s : State) (now : U32), s.CodesLegal → s.lineBreak = true →
    framed s = { s with rxin := [], rxDone := false, txDone := false } ∧
    ∃ t, exec (.poll now) s = .next t ∧ t.rxin = [] ∧ t.rxDone = false ∧ t.txDone = false ∧
      t.rxFrame = s.rxFrame ∧ t.txFrame = s.txFrame ∧
      (s.qstate ≠ 2 → t.frPhase = s.frPhase ∧ t.frBuf = s.frBuf ∧ t.frCount = s.frCount ∧ t.frDeclLen = s.frDeclLen)) ∧
  (∀ (s : State) (bytes : Bytes) (rest : List Input), s.lineBreak = true → s.inbox = .wire bytes :: rest →
    step s = .next { s with inbox := rest, rxin := s.rxin ++ bytes.map fun b => ⟨b, true⟩ }) ∧
  (∀ (s t : State) (i : Instr), i.isRequest = true → exec i s = .next t →
    exec i s.forgetBreakBytes = .next t.forgetBreakBytes)

/-- R121 to R124: the framer, idle, drops what is no header, then takes `L + 2` bytes as one frame, whatever they
are; the rest stays in `RXIN` (R125). The header decides the direction. (The bytes are traffic; bytes of a hold among them
make no difference, as `BreakDiscardsBytes` says.) -/
def Obligations.FrameReassembled : Prop :=
  ∀ (s : State) (now : U32) (noise body : Bytes) (rest : List Received) (h l : Byte), s.CodesLegal →
    s.lineBreak = false → s.frPhase = 0 → s.par.txHeader ≠ s.par.rxHeader →
    (∀ b ∈ noise, b ≠ s.par.txHeader ∧ b ≠ s.par.rxHeader) → body.length = l.toNat →
    s.rxin = traffic (noise ++ h :: l :: body) ++ rest →
    (h = s.par.rxHeader → ∃ t, exec (.poll now) s = .next t ∧ t.rxin = rest ∧ t.rxDone = true ∧
      t.rxFrame = h :: l :: body ∧ t.txDone = false ∧ t.txFrame = s.txFrame ∧
      t.frPhase = 0 ∧ t.frBuf = [] ∧ t.frCount = 0 ∧ t.frDeclLen = 0) ∧
    (h = s.par.txHeader → ∃ t, exec (.poll now) s = .next t ∧ t.rxin = rest ∧ t.txDone = true ∧
      t.txFrame = h :: l :: body ∧ t.rxDone = false ∧ t.rxFrame = s.rxFrame ∧
      t.frPhase = 0 ∧ t.frBuf = [] ∧ t.frCount = 0 ∧ t.frDeclLen = 0)

/-- R121: bytes that are no header, received while the framer is idle, are dropped and nothing else happens to it (the
BREAK_SET action resets it in any case). So are bytes of a hold (R127), whatever they are (log entry 19). -/
def Obligations.NoiseDropped : Prop :=
  ∀ (s : State) (now : U32), s.CodesLegal → s.lineBreak = false → s.frPhase = 0 →
    (∀ r ∈ s.rxin, r.inBreak = true ∨ (r.byte ≠ s.par.txHeader ∧ r.byte ≠ s.par.rxHeader)) →
    ∃ t, exec (.poll now) s = .next t ∧ t.rxin = [] ∧ t.rxDone = false ∧ t.txDone = false ∧
      t.rxFrame = s.rxFrame ∧ t.txFrame = s.txFrame ∧ t.frPhase = 0 ∧
      (s.qstate ≠ 2 → t.frBuf = s.frBuf ∧ t.frCount = s.frCount ∧ t.frDeclLen = s.frDeclLen)

/-- R125 and R126: a POLL completes at most one frame; it leaves a flag set only with a frame completed in it, whose
last byte is the last one taken from `RXIN` and no byte of a hold (log entry 19); the frame register of a direction
changes only with its flag. What the flags were before a POLL does not matter to it, and between two POLLs nothing
changes them or the frame registers. -/
def Obligations.AtMostOneFramePerPoll : Prop :=
  (∀ (s t : State) (now : U32), exec (.poll now) s = .next t →
    ¬ (t.rxDone = true ∧ t.txDone = true) ∧ (t.rxDone = false → t.rxFrame = s.rxFrame) ∧
    (t.txDone = false → t.txFrame = s.txFrame) ∧
    ∃ taken, s.rxin = taken ++ t.rxin ∧
      (t.rxDone = true → ∃ b, taken.getLast? = some ⟨b, false⟩ ∧ t.rxFrame.getLast? = some b) ∧
      (t.txDone = true → ∃ b, taken.getLast? = some ⟨b, false⟩ ∧ t.txFrame.getLast? = some b)) ∧
  (∀ (s : State) (now : U32) (rx tx : Bool),
    exec (.poll now) { s with rxDone := rx, txDone := tx } = exec (.poll now) s) ∧
  (∀ (s t : State) (i : Instr), (∀ now, i ≠ .poll now) → exec i s = .next t →
    t.rxDone = s.rxDone ∧ t.txDone = s.txDone ∧ t.rxFrame = s.rxFrame ∧ t.txFrame = s.txFrame)

/-- R132 case 3, which the spec derives from R121 to R125: bytes that arrive over two POLLs are framed as if they had
arrived together. First phases A and B alone, in every state; then two POLLs in any state but BREAK_SET with the bus
released, whatever the sequencer does in them; then, where the first POLL does no more than frame, everything. -/
def Obligations.FrameSpansPolls : Prop :=
  (∀ (s : State) (a b : List Received),
    let u := framed { s with rxin := a }
    u.rxDone = false → u.txDone = false → framed { u with rxin := b } = framed { s with rxin := a ++ b }) ∧
  (∀ (s u v w : State) (a b : List Received) (t₁ t₂ : U32), s.lineBreak = false → s.qstate ≠ 2 →
    exec (.poll t₁) { s with rxin := a } = .next u → u.rxDone = false → u.txDone = false →
    exec (.poll t₂) { u with rxin := b } = .next v → exec (.poll t₂) { s with rxin := a ++ b } = .next w →
    v.rxin = w.rxin ∧ v.rxDone = w.rxDone ∧ v.txDone = w.txDone ∧ v.rxFrame = w.rxFrame ∧ v.txFrame = w.txFrame ∧
      (u.qstate ≠ 2 →
        v.frPhase = w.frPhase ∧ v.frBuf = w.frBuf ∧ v.frCount = w.frCount ∧ v.frDeclLen = w.frDeclLen)) ∧
  (∀ (s u v w : State) (a b : List Received) (t₁ t₂ : U32),
    exec (.poll t₁) { s with rxin := a } = .next u → u = (framed { s with rxin := a }).done [] [] →
    u.rxDone = false → u.txDone = false →
    exec (.poll t₂) { u with rxin := b } = .next v → exec (.poll t₂) { s with rxin := a ++ b } = .next w → v = w)

/-! ## Sequencer -/

/-- R162: IDLE with nothing queued, or with the spacing interval running, does nothing beyond phases A and B. -/
def Obligations.IdleWaits : Prop :=
  ∀ (s : State) (now : U32), s.CodesLegal → s.qstate = 0 →
    (s.pq = [] ∧ s.nq = []) ∨ (s.spacingArmed = true ∧ (now - s.spacingStart).toNat < s.cfgSpacing.toNat) →
    exec (.poll now) s = .next ((framed s).done [] [])

/-- R148, R163 and R164: IDLE with the spacing satisfied dispatches the oldest priority entry, or with none the oldest
normal one; the frame is presented whole, and the line environment's answer decides. -/
def Obligations.IdleDispatches : Prop :=
  ∀ (s : State) (now : U32) (e : Entry) (rest : List Entry), s.CodesLegal → s.qstate = 0 →
    s.spacingArmed = false ∨ s.cfgSpacing.toNat ≤ (now - s.spacingStart).toNat →
    let u := (framed s).answerTaken
    let f := encodeFrame s.par.txHeader e.cmd
    let sending := fun (origin : Queue) (u : State) =>
      State.done
        { u with
          slot := { valid := true, cmd := e.cmd, loop := e.loop, tag := e.tag, origin := origin, txFrame := f }
          attempt := 1
          timerStart := now
          timerDur := s.cfgTimeout
          qstate := 1 }
        [.transmitted e.tag 1] [f]
    let txFailed := u.cleared.done [.failed e.tag .txFail 1, .cleared .txFail] [f]
    (s.pq = e :: rest → exec (.poll now) s = .next
      (if s.nextTxOk then sending .prio { u with pq := rest } else txFailed)) ∧
    (s.pq = [] → s.nq = e :: rest → exec (.poll now) s = .next
      (if s.nextTxOk then sending .norm { u with nq := rest } else txFailed))

/-- R166 and R167: a reply the codec accepts completes the command, even when its interval has elapsed. A loop
command that completes without a NAK goes to the tail of the queue it came from, or is dropped silently where that
queue refuses it; nothing else is queued again. (A command in flight has 1 to `CMD_MAX_BYTES` bytes: R26, R27, and the
invariant of `StepKeepsInvariant`.) -/
def Obligations.CompletionEndsExchange : Prop :=
  ∀ (s : State) (now : U32) (c₀ : Byte) (cs : Bytes) (r : FrameRecord), s.CodesLegal → s.qstate = 1 →
    s.slot.cmd = c₀ :: cs → s.slot.cmd.length ≤ s.par.cmdMaxBytes → (framed s).rxDone = true →
    decodeFrame (framed s).rxFrame (some c₀) none none = .ok r →
    let ended := fun (u : State) =>
      State.done { u with slot := InFlight.empty, attempt := 0, qstate := 0, spacingArmed := true, spacingStart := now }
        [.complete s.slot.tag r.nak s.attempt s.slot.txFrame (framed s).rxFrame] []
    let again : Entry := { cmd := s.slot.cmd, loop := true, tag := s.slot.tag }
    (s.slot.loop = false ∨ r.nak = true → exec (.poll now) s = .next (ended (framed s))) ∧
    (s.slot.loop = true → r.nak = false → s.slot.origin = .prio → exec (.poll now) s = .next (ended
      (if s.cfgCapP.toNat ≤ s.pq.length ∨ ∃ e ∈ s.pq, e.cmd = s.slot.cmd then framed s
       else { framed s with pq := s.pq ++ [again] }))) ∧
    (s.slot.loop = true → r.nak = false → s.slot.origin = .norm → exec (.poll now) s = .next (ended
      (if s.cfgCapN.toNat ≤ s.nq.length ∨ ∃ e ∈ s.nq, e.cmd = s.slot.cmd then framed s
       else { framed s with nq := s.nq ++ [again] })))

/-- R174, which the spec derives from R104, R165 and R166: a NAK completes the command in flight, whatever command was
sent, with no loop re-enqueue and no retry. -/
def Obligations.NakCompletes : Prop :=
  ∀ (s : State) (now : U32), s.CodesLegal → s.qstate = 1 → (framed s).rxDone = true →
    wellFormedFrame (framed s).rxFrame = true → byteAt (framed s).rxFrame 2 = 0x7F →
    ∃ t, exec (.poll now) s = .next t ∧
      t.out.events = [.complete s.slot.tag true s.attempt s.slot.txFrame (framed s).rxFrame] ∧
      t.out.sent = [] ∧ t.qstate = 0 ∧ t.slot = InFlight.empty ∧ t.pq = s.pq ∧ t.nq = s.nq

/-- R165, R168 and R169: no accepted reply. A rejected one is reported and dropped, and does not stop the timeout; a
timeout is reported and moves to BREAK_SET; nothing else changes. (A command in flight has a first byte: R26, R27.) -/
def Obligations.SendingWithoutReply : Prop :=
  ∀ (s : State) (now : U32) (c₀ : Byte) (cs : Bytes) (es : List Event), s.CodesLegal → s.qstate = 1 →
    s.slot.cmd = c₀ :: cs →
    ((framed s).rxDone = false ∧ es = []) ∨
      (∃ code, (framed s).rxDone = true ∧ decodeFrame (framed s).rxFrame (some c₀) none none = .error code ∧
        es = [.frameError s.slot.tag code]) →
    exec (.poll now) s = .next
      (if s.timerDur.toNat ≤ (now - s.timerStart).toNat then
        State.done { framed s with qstate := 2 } (es ++ [.timeout s.slot.tag s.attempt]) []
       else (framed s).done es [])

/-- R130: the echo of a frame, received in SENDING, changes only `TX_DONE` and `TX_FRAME`. -/
def Obligations.EchoCompletesNothing : Prop :=
  ∀ (s : State) (now : U32) (l : Byte) (body : Bytes), s.CodesLegal → s.qstate = 1 → s.lineBreak = false →
    s.frPhase = 0 → s.frBuf = [] → s.frCount = 0 → s.frDeclLen = 0 → body.length = l.toNat →
    s.rxin = traffic (s.par.txHeader :: l :: body) → (now - s.timerStart).toNat < s.timerDur.toNat →
    exec (.poll now) s = .next
      (State.done { s with rxin := [], rxDone := false, txDone := true, txFrame := s.par.txHeader :: l :: body } [] [])

/-- R170: BREAK_SET drives the bus low, abandons a partial frame and starts the hold. -/
def Obligations.BreakSetDrivesLow : Prop :=
  ∀ (s : State) (now : U32), s.CodesLegal → s.qstate = 2 →
    exec (.poll now) s = .next
      (State.done
        { framed s with
          lineBreak := true, frPhase := 0, frBuf := [], frCount := 0, frDeclLen := 0,
          timerStart := now, timerDur := s.cfgBreak, qstate := 3 } [] [])

/-- R171: BREAK_RESET releases the bus once the hold has elapsed and starts an equal recovery time. -/
def Obligations.BreakResetReleases : Prop :=
  ∀ (s : State) (now : U32), s.CodesLegal → s.qstate = 3 →
    exec (.poll now) s = .next
      (if s.timerDur.toNat ≤ (now - s.timerStart).toNat then
        State.done { framed s with lineBreak := false, timerStart := now, qstate := 4 } [] []
       else (framed s).done [] [])

/-- R172: RETRY, once the recovery time has elapsed, counts the attempt, then fails the command over the budget, or
transmits the same frame again. -/
def Obligations.RetryDecides : Prop :=
  ∀ (s : State) (now : U32), s.CodesLegal → s.qstate = 4 →
    let u := { framed s with attempt := s.attempt + 1 }
    exec (.poll now) s = .next
      (if s.timerDur.toNat ≤ (now - s.timerStart).toNat then
        if (s.attempt + 1).toNat > s.cfgMaxRetries.toNat then
          u.cleared.done [.failed s.slot.tag .retriesExhausted (s.attempt + 1), .cleared .retriesExhausted] []
        else if s.nextTxOk then
          State.done { u.answerTaken with timerStart := now, timerDur := s.cfgTimeout, qstate := 1 }
            [.transmitted s.slot.tag (s.attempt + 1)] [s.slot.txFrame]
        else
          u.answerTaken.cleared.done [.failed s.slot.tag .txFail (s.attempt + 1), .cleared .txFail] [s.slot.txFrame]
       else (framed s).done [] [])

/-- Phases A and B touch only the framer and `RXIN` (R125, R126): the frame of every POLL statement above. -/
def Obligations.FramingTouchesOnlyFramer : Prop :=
  ∀ s : State,
    framed s =
      { s with
        frPhase := (framed s).frPhase, frBuf := (framed s).frBuf, frCount := (framed s).frCount,
        frDeclLen := (framed s).frDeclLen, rxDone := (framed s).rxDone, txDone := (framed s).txDone,
        rxFrame := (framed s).rxFrame, txFrame := (framed s).txFrame, rxin := (framed s).rxin }

/-- R160: POLL always returns `OK`, and writes no configuration register and no parameter. -/
def Obligations.PollReturnsOk : Prop :=
  ∀ (s : State) (now : U32), s.CodesLegal →
    ∃ t, exec (.poll now) s = .next t ∧ t.out.result = some (.ok .none) ∧ t.par = s.par ∧
      t.cfgSpacing = s.cfgSpacing ∧ t.cfgTimeout = s.cfgTimeout ∧ t.cfgBreak = s.cfgBreak ∧
      t.cfgMaxRetries = s.cfgMaxRetries ∧ t.cfgCapP = s.cfgCapP ∧ t.cfgCapN = s.cfgCapN ∧ t.inbox = s.inbox

/-- R205, which the spec derives from R160 to R172 and R207: the event lists a step can emit. -/
def Obligations.EventListShapes : Prop :=
  ∀ (s t : State) (i : Instr), i.isRequest = true → exec i s = .next t →
    ((∃ now, i = .poll now) ∧
      (t.out.events = [] ∨ (∃ g a, t.out.events = [.transmitted g a]) ∨
        (∃ g k a x y, t.out.events = [.complete g k a x y]) ∨ (∃ g c, t.out.events = [.frameError g c]) ∨
        (∃ g a, t.out.events = [.timeout g a]) ∨ (∃ g c a, t.out.events = [.frameError g c, .timeout g a]) ∨
        (∃ g r a, t.out.events = [.failed g r a, .cleared r.toClear]))) ∨
    (i = .clear ∧ t.out.events = [.cleared .host]) ∨
    ((∀ now, i ≠ .poll now) ∧ i ≠ .clear ∧ t.out.events = [])

/-- R180, which the spec derives from R162 to R172 and R207: every change of `QSTATE`, with its condition and its
events. (The expected command is `IF_CMD[0]`; that an empty `IF_CMD`, which no run reaches, expects none is the model's
choice, log entry 7.) -/
def Obligations.TransitionSummary : Prop :=
  ∀ (s t : State) (i : Instr), exec i s = .next t → t.qstate ≠ s.qstate →
    (i = .clear ∧ t.qstate = 0 ∧ t.out.events = [.cleared .host]) ∨
    ∃ now, i = .poll now ∧
      let elapsed := s.timerDur.toNat ≤ (now - s.timerStart).toNat
      let accepted := t.rxDone = true ∧ ∃ r, decodeFrame t.rxFrame s.slot.cmd.head? none none = .ok r
      ((s.qstate = 0 ∧ t.qstate = 1 ∧ (s.pq ≠ [] ∨ s.nq ≠ []) ∧ s.nextTxOk = true ∧
          (s.spacingArmed = false ∨ s.cfgSpacing.toNat ≤ (now - s.spacingStart).toNat) ∧
          ∃ g, t.out.events = [.transmitted g 1]) ∨
       (s.qstate = 1 ∧ t.qstate = 0 ∧ accepted ∧
          ∃ k x y, t.out.events = [.complete s.slot.tag k s.attempt x y]) ∨
       (s.qstate = 1 ∧ t.qstate = 2 ∧ elapsed ∧ ¬ accepted ∧
          (t.out.events = [.timeout s.slot.tag s.attempt] ∨
            ∃ c, t.out.events = [.frameError s.slot.tag c, .timeout s.slot.tag s.attempt])) ∨
       (s.qstate = 2 ∧ t.qstate = 3 ∧ t.out.events = []) ∨
       (s.qstate = 3 ∧ t.qstate = 4 ∧ elapsed ∧ t.out.events = []) ∨
       (s.qstate = 4 ∧ t.qstate = 1 ∧ elapsed ∧ (s.attempt + 1).toNat ≤ s.cfgMaxRetries.toNat ∧ s.nextTxOk = true ∧
          t.out.events = [.transmitted s.slot.tag (s.attempt + 1)]) ∨
       (s.qstate = 4 ∧ t.qstate = 0 ∧ elapsed ∧ (s.attempt + 1).toNat ≤ s.cfgMaxRetries.toNat ∧ s.nextTxOk = false ∧
          t.out.events = [.failed s.slot.tag .txFail (s.attempt + 1), .cleared .txFail]) ∨
       (s.qstate = 4 ∧ t.qstate = 0 ∧ elapsed ∧ s.cfgMaxRetries.toNat < (s.attempt + 1).toNat ∧
          t.out.events = [.failed s.slot.tag .retriesExhausted (s.attempt + 1), .cleared .retriesExhausted]))

/-- R208: after a fatal error the block is idle with empty queues and no command in flight, the bus released. -/
def Obligations.FatalErrorClearsSession : Prop :=
  ∀ (s t : State) (now : U32) (g : Option U16) (r : FailReason) (a : U16), exec (.poll now) s = .next t →
    .failed g r a ∈ t.out.events →
    t.out.events = [.failed g r a, .cleared r.toClear] ∧ t.qstate = 0 ∧ t.pq = [] ∧ t.nq = [] ∧
      t.slot = InFlight.empty ∧ t.lineBreak = false ∧ t.spacingArmed = false

/-- R173, which the spec derives from R163 to R172: a queued command that gets no reply is transmitted `max(M, 1)`
times, times out as often, then fails, and both queues are empty. Any bytes may arrive, its echo and rejected frames
(each reported by EV_FRAME_ERROR) among them, and any number of POLLs may fall in each interval. The answers "every
`tx_ok` is true" are the scripted ones (log entry 4). -/
def Obligations.RetryBound : Prop :=
  ∀ (s : State) (first : Tick) (e : Entry) (c₀ : Byte) (cs : Bytes) (q : List Entry) (answers : List Bool)
    (attempts : List AttemptPolls),
    s.CodesLegal → s.qstate = 0 → e.cmd = c₀ :: cs →
    s.spacingArmed = false ∨ s.cfgSpacing.toNat ≤ (first.now - s.spacingStart).toNat →
    s.pq = e :: q ∨ (s.pq = [] ∧ s.nq = e :: q) →
    attempts.length = max s.cfgMaxRetries.toNat 1 →
    s.txAnswers = List.replicate (max s.cfgMaxRetries.toNat 1) true ++ answers →
    IntervalsElapse s.cfgTimeout s.cfgBreak first.now attempts →
    noReplyAccepted c₀ (first :: (attempts.map AttemptPolls.polls).flatten) s = true →
    ∃ t log, pollLog (first :: (attempts.map AttemptPolls.polls).flatten) s = some (t, log) ∧
      log.filter (fun x => !x.isFrameError) =
        .transmitted e.tag 1 :: silentEvents e.tag 1 (max s.cfgMaxRetries.toNat 1) ∧
      t.qstate = 0 ∧ t.pq = [] ∧ t.nq = [] ∧ t.slot = InFlight.empty ∧ t.txAnswers = answers

/-! ## Whole-machine rules -/

/-- R61: six operations read without side effects. -/
def Obligations.ReadsHaveNoSideEffect : Prop :=
  ∀ (s t : State) (i : Instr),
    ((∃ r, i = .readReg r) ∨ (∃ d, i = .readFrame d) ∨ i = .isIdle ∨ i = .pending ∨
      (∃ d k x y, i = .encodeOp d k x y) ∨ (∃ b k x m, i = .decodeOp b k x m)) →
    exec i s = .next t → SameState s t ∧ exec i t = .next t

/-- R201, which the spec derives from its operation rules: every operation returns `OK` or one code; one that returns
a code writes no state and emits no event; POLL never does. -/
def Obligations.RaisesArePrecise : Prop :=
  ∀ (s t : State) (i : Instr), i.isRequest = true → exec i s = .next t →
    ∃ r, t.out.result = some r ∧
      ∀ e, r = .raise e → SameState s t ∧ t.out.events = [] ∧ t.out.sent = [] ∧ ∀ now, i ≠ .poll now

/-- R28 and R29: each configuration register is written by its own operation alone. -/
def Obligations.ConfigurationWriters : Prop :=
  ∀ (s t : State) (i : Instr), exec i s = .next t →
    (t.cfgSpacing ≠ s.cfgSpacing ∨ t.cfgTimeout ≠ s.cfgTimeout ∨ t.cfgBreak ≠ s.cfgBreak →
      ∃ a b c, i = .setTiming a b c) ∧
    (t.cfgMaxRetries ≠ s.cfgMaxRetries → ∃ n, i = .setMaxRetries n) ∧
    (t.cfgCapP ≠ s.cfgCapP ∨ t.cfgCapN ≠ s.cfgCapN → ∃ q n, i = .setCapacity q n)

/-- R24: only the BREAK_SET action drives the bus low; only the BREAK_RESET action and a session clear release it. -/
def Obligations.BreakDriveWriters : Prop :=
  ∀ (s t : State) (i : Instr), exec i s = .next t →
    (s.lineBreak = false → t.lineBreak = true → s.qstate = 2 ∧ ∃ now, i = .poll now) ∧
    (s.lineBreak = true → t.lineBreak = false →
      (s.qstate = 3 ∧ t.qstate = 4 ∧ ∃ now, i = .poll now) ∨ ∃ r, .cleared r ∈ t.out.events)

/-- R5: no step changes the parameters the engine was built with. -/
def Obligations.ParametersFixed : Prop :=
  ∀ s t : State, step s = .next t → t.par = s.par

/-- R120 and R78: a frame of a class that arrives on the wire is appended to `RXIN`, its bytes those of its class, and
no state of the block changes. That a wire-frame row stands for such an arrival is the model's (log entry 3), and so is the mark of a byte that says
whether the bus was held low (log entry 19). -/
def Obligations.FrameArrives : Prop :=
  ∀ (s : State) (body data : Bytes) (dir : Dir) (cmd : BitVec 7),
    let arrives := fun (i : Instr) (f : Bytes) =>
      exec i s = .next { s with rxin := s.rxin ++ f.map fun b => ⟨b, s.lineBreak⟩ }
    let h := match dir with
      | .tx => s.par.txHeader
      | .rx => s.par.rxHeader
    let framedAs := fun (c : Byte) =>
      let head := [h, BitVec.ofNat 8 (data.length + 2), c] ++ data
      head ++ [head.foldl (· ^^^ ·) 0]
    arrives (.frameEchoTx body) (s.par.txHeader :: body) ∧ arrives (.frameReplyRx body) (s.par.rxHeader :: body) ∧
    arrives (.frameNak dir data) (framedAs 0x7F) ∧
    arrives (.frameAck dir cmd data) (framedAs (0x80 + cmd.setWidth 8)) ∧
    arrives (.framePlain dir cmd data) (framedAs (cmd.setWidth 8))

/-- An unassigned opcode: `ILLEGAL_OP`, no event, no state change (R151). -/
def Obligations.IllegalOpcodeAnswered : Prop :=
  ∀ (s : State) (op : Byte) (rest : Bytes), s.CodesLegal →
    exec (.reservedIllegalOp op rest) s = .next (s.answer (.raise .illegalOp))

/-! ## Reset and the invariant -/

/-- R35: the values after reset of an engine built with the parameters `p`. -/
def Obligations.ResetValues : Prop :=
  ∀ p : Params, p.Ok →
    let s := State.resetOf p
    s.qstate = 0 ∧ s.attempt = 0 ∧ s.timerStart = 0 ∧ s.timerDur = 0 ∧ s.spacingArmed = false ∧ s.spacingStart = 0 ∧
    s.lineBreak = false ∧ s.pq = [] ∧ s.nq = [] ∧
    s.slot = { valid := false, cmd := [], loop := false, tag := none, origin := .prio, txFrame := [] } ∧
    s.cfgSpacing = p.resetSpacing ∧ s.cfgTimeout = p.resetTimeout ∧ s.cfgBreak = p.resetBreak ∧
    s.cfgMaxRetries = p.resetMaxRetries ∧ s.cfgCapP.toNat = p.qdepthP ∧ s.cfgCapN.toNat = p.qdepthN ∧
    s.frPhase = 0 ∧ s.frBuf = [] ∧ s.frCount = 0 ∧ s.frDeclLen = 0 ∧ s.rxDone = false ∧ s.txDone = false ∧
    s.rxFrame = [] ∧ s.txFrame = []

/-- R231, which the spec derives from R162 and R230: the spacing interval is disarmed at reset, so the first POLL
dispatches a queued command at once. -/
def Obligations.FirstPollDispatches : Prop :=
  ∀ (p : Params) (c : Bytes) (tag : Option U16) (now : U32) (answers : List Bool), p.Ok → 1 ≤ c.length →
    c.length ≤ p.cmdMaxBytes →
    ∃ t u, exec (.enqn c false tag) { State.resetOf p with txAnswers := true :: answers } = .next t ∧
      exec (.poll now) t = .next u ∧ u.qstate = 1 ∧ u.slot.cmd = c ∧ u.out.events = [.transmitted tag 1] ∧
      u.out.sent = [encodeFrame p.txHeader c]

/-- The state after reset meets the invariant (R34, R35). -/
def Obligations.ResetMeetsInvariant : Prop :=
  (∀ p : Params, p.Ok → (State.resetOf p).Inv) ∧ State.reset.Inv

/-- R34, which the spec derives from its other rules: from every state that meets the invariants, every step gives a
state that meets them. -/
def Obligations.StepKeepsInvariant : Prop :=
  ∀ s t : State, s.Inv → step s = .next t → t.Inv

/-- From a state that meets the invariants the machine never stops (U6, U7: the reserved codes are unreachable). -/
def Obligations.InvariantStatesNeverStop : Prop :=
  ∀ s : State, s.Inv → ∃ t, step s = .next t ∧ t.CodesLegal

/-! ## Runs under the duties of the environment -/

/-- R244 and R247, which the spec derives from R161: under the time source's duty (R243 item 1) each interval ends at
the first POLL whose real time finds it elapsed, whatever the wrap of `now`. `start` is the real time at which the
interval began, at the last POLL or before it. How a duty is read is the model's (log entry 17). -/
def Obligations.IntervalsMeasureRealTime : Prop :=
  ∀ (s t : State) (e e' : Environment) (start last time : Nat) (canSend : Bool),
    e.lastPoll = some last → start ≤ last → time - start < 2 ^ 32 →
    envStep (.poll time canSend) e s = some (e', t) →
    (s.qstate = 1 → s.timerStart = nowAt start → t.rxDone = false →
      (t.qstate = 2 ↔ s.timerDur.toNat ≤ time - start)) ∧
    (s.qstate = 3 → s.timerStart = nowAt start → (t.qstate = 4 ↔ s.timerDur.toNat ≤ time - start)) ∧
    (s.qstate = 4 → s.timerStart = nowAt start → (t.qstate ≠ 4 ↔ s.timerDur.toNat ≤ time - start)) ∧
    (s.qstate = 0 → s.spacingArmed = true → s.spacingStart = nowAt start → (s.pq ≠ [] ∨ s.nq ≠ []) →
      (t.out.sent ≠ [] ↔ s.cfgSpacing.toNat ≤ time - start))

/-- R241, which the spec derives: under the duties (R243) the echo delays the reply by one POLL. A command is
transmitted, its echo and then an accepted reply arrive before the next POLL: that POLL, inside the response interval,
takes the echo and completes nothing, and the one after it takes the reply and completes the command. How a duty is
read is the model's (log entry 17). -/
def Obligations.EchoDelaysReply : Prop :=
  ∀ (s : State) (e : Environment) (x : Entry) (q : List Entry) (reply : Bytes) (r : FrameRecord) (t₀ t₁ t₂ : Nat)
    (b₁ b₂ : Bool),
    s.Inv → s.qstate = 0 → s.rxin = [] → s.frPhase = 0 →
    s.spacingArmed = false ∨ s.cfgSpacing.toNat ≤ (nowAt t₀ - s.spacingStart).toNat →
    s.pq = x :: q ∨ (s.pq = [] ∧ s.nq = x :: q) →
    s.nextTxOk = true → e.echoOwed = [] → e.replyOpen = false → e.timeAdvances t₀ = true →
    t₀ ≤ t₁ → t₁ - t₀ < s.cfgTimeout.toNat → t₁ ≤ t₂ → t₂ - t₁ < 2 ^ 32 →
    reply.head? = some s.par.rxHeader → decodeFrame reply x.cmd.head? none none = .ok r →
    let f := encodeFrame s.par.txHeader x.cmd
    let first := [.poll t₀ true, .echo f, .reply reply true, .poll t₁ b₁]
    (∃ e' u, envRun first e s = some (e', u, [.transmitted x.tag 1]) ∧ u.qstate = 1 ∧ u.txDone = true ∧
      u.txFrame = f ∧ u.rxDone = false ∧ u.rxin = traffic reply) ∧
    (∃ e' u, envRun (first ++ [.poll t₂ b₂]) e s =
        some (e', u, [.transmitted x.tag 1, .complete x.tag r.nak 1 f reply]) ∧
      dutiesMet (first ++ [.poll t₂ b₂]) e s = true ∧ u.qstate = 0 ∧ u.slot = InFlight.empty ∧ u.rxin = [])
end

