-- ==== Sys2Proof/Laws/State.lean ====
section
/-! SUPPORT. The projections of the named updates of State: one lemma per field per update, true by rfl. -/

namespace Sys2Proof.Machine

/-! begin -/

@[simp] theorem begin_par (s : State) : s.begin.par = s.par := rfl
@[simp] theorem begin_qstate (s : State) : s.begin.qstate = s.qstate := rfl
@[simp] theorem begin_attempt (s : State) : s.begin.attempt = s.attempt := rfl
@[simp] theorem begin_timerStart (s : State) : s.begin.timerStart = s.timerStart := rfl
@[simp] theorem begin_timerDur (s : State) : s.begin.timerDur = s.timerDur := rfl
@[simp] theorem begin_spacingArmed (s : State) : s.begin.spacingArmed = s.spacingArmed := rfl
@[simp] theorem begin_spacingStart (s : State) : s.begin.spacingStart = s.spacingStart := rfl
@[simp] theorem begin_lineBreak (s : State) : s.begin.lineBreak = s.lineBreak := rfl
@[simp] theorem begin_pq (s : State) : s.begin.pq = s.pq := rfl
@[simp] theorem begin_nq (s : State) : s.begin.nq = s.nq := rfl
@[simp] theorem begin_slot (s : State) : s.begin.slot = s.slot := rfl
@[simp] theorem begin_cfgSpacing (s : State) : s.begin.cfgSpacing = s.cfgSpacing := rfl
@[simp] theorem begin_cfgTimeout (s : State) : s.begin.cfgTimeout = s.cfgTimeout := rfl
@[simp] theorem begin_cfgBreak (s : State) : s.begin.cfgBreak = s.cfgBreak := rfl
@[simp] theorem begin_cfgMaxRetries (s : State) : s.begin.cfgMaxRetries = s.cfgMaxRetries := rfl
@[simp] theorem begin_cfgCapP (s : State) : s.begin.cfgCapP = s.cfgCapP := rfl
@[simp] theorem begin_cfgCapN (s : State) : s.begin.cfgCapN = s.cfgCapN := rfl
@[simp] theorem begin_frPhase (s : State) : s.begin.frPhase = s.frPhase := rfl
@[simp] theorem begin_frBuf (s : State) : s.begin.frBuf = s.frBuf := rfl
@[simp] theorem begin_frCount (s : State) : s.begin.frCount = s.frCount := rfl
@[simp] theorem begin_frDeclLen (s : State) : s.begin.frDeclLen = s.frDeclLen := rfl
@[simp] theorem begin_rxDone (s : State) : s.begin.rxDone = s.rxDone := rfl
@[simp] theorem begin_txDone (s : State) : s.begin.txDone = s.txDone := rfl
@[simp] theorem begin_rxFrame (s : State) : s.begin.rxFrame = s.rxFrame := rfl
@[simp] theorem begin_txFrame (s : State) : s.begin.txFrame = s.txFrame := rfl
@[simp] theorem begin_rxin (s : State) : s.begin.rxin = s.rxin := rfl
@[simp] theorem begin_txAnswers (s : State) : s.begin.txAnswers = s.txAnswers := rfl
@[simp] theorem begin_txDraws (s : State) : s.begin.txDraws = s.txDraws := rfl
@[simp] theorem begin_inbox (s : State) : s.begin.inbox = s.inbox := rfl
@[simp] theorem begin_out (s : State) : s.begin.out = Out.empty := rfl

/-! emit -/

@[simp] theorem emit_par (s : State) (e : Event) : (s.emit e).par = s.par := rfl
@[simp] theorem emit_qstate (s : State) (e : Event) : (s.emit e).qstate = s.qstate := rfl
@[simp] theorem emit_attempt (s : State) (e : Event) : (s.emit e).attempt = s.attempt := rfl
@[simp] theorem emit_timerStart (s : State) (e : Event) : (s.emit e).timerStart = s.timerStart := rfl
@[simp] theorem emit_timerDur (s : State) (e : Event) : (s.emit e).timerDur = s.timerDur := rfl
@[simp] theorem emit_spacingArmed (s : State) (e : Event) : (s.emit e).spacingArmed = s.spacingArmed := rfl
@[simp] theorem emit_spacingStart (s : State) (e : Event) : (s.emit e).spacingStart = s.spacingStart := rfl
@[simp] theorem emit_lineBreak (s : State) (e : Event) : (s.emit e).lineBreak = s.lineBreak := rfl
@[simp] theorem emit_pq (s : State) (e : Event) : (s.emit e).pq = s.pq := rfl
@[simp] theorem emit_nq (s : State) (e : Event) : (s.emit e).nq = s.nq := rfl
@[simp] theorem emit_slot (s : State) (e : Event) : (s.emit e).slot = s.slot := rfl
@[simp] theorem emit_cfgSpacing (s : State) (e : Event) : (s.emit e).cfgSpacing = s.cfgSpacing := rfl
@[simp] theorem emit_cfgTimeout (s : State) (e : Event) : (s.emit e).cfgTimeout = s.cfgTimeout := rfl
@[simp] theorem emit_cfgBreak (s : State) (e : Event) : (s.emit e).cfgBreak = s.cfgBreak := rfl
@[simp] theorem emit_cfgMaxRetries (s : State) (e : Event) : (s.emit e).cfgMaxRetries = s.cfgMaxRetries := rfl
@[simp] theorem emit_cfgCapP (s : State) (e : Event) : (s.emit e).cfgCapP = s.cfgCapP := rfl
@[simp] theorem emit_cfgCapN (s : State) (e : Event) : (s.emit e).cfgCapN = s.cfgCapN := rfl
@[simp] theorem emit_frPhase (s : State) (e : Event) : (s.emit e).frPhase = s.frPhase := rfl
@[simp] theorem emit_frBuf (s : State) (e : Event) : (s.emit e).frBuf = s.frBuf := rfl
@[simp] theorem emit_frCount (s : State) (e : Event) : (s.emit e).frCount = s.frCount := rfl
@[simp] theorem emit_frDeclLen (s : State) (e : Event) : (s.emit e).frDeclLen = s.frDeclLen := rfl
@[simp] theorem emit_rxDone (s : State) (e : Event) : (s.emit e).rxDone = s.rxDone := rfl
@[simp] theorem emit_txDone (s : State) (e : Event) : (s.emit e).txDone = s.txDone := rfl
@[simp] theorem emit_rxFrame (s : State) (e : Event) : (s.emit e).rxFrame = s.rxFrame := rfl
@[simp] theorem emit_txFrame (s : State) (e : Event) : (s.emit e).txFrame = s.txFrame := rfl
@[simp] theorem emit_rxin (s : State) (e : Event) : (s.emit e).rxin = s.rxin := rfl
@[simp] theorem emit_txAnswers (s : State) (e : Event) : (s.emit e).txAnswers = s.txAnswers := rfl
@[simp] theorem emit_txDraws (s : State) (e : Event) : (s.emit e).txDraws = s.txDraws := rfl
@[simp] theorem emit_inbox (s : State) (e : Event) : (s.emit e).inbox = s.inbox := rfl
@[simp] theorem emit_out (s : State) (e : Event) : (s.emit e).out = { s.out with events := s.out.events ++ [e] } := rfl

/-! setResult -/

@[simp] theorem setResult_par (s : State) (r : Result) : (s.setResult r).par = s.par := rfl
@[simp] theorem setResult_qstate (s : State) (r : Result) : (s.setResult r).qstate = s.qstate := rfl
@[simp] theorem setResult_attempt (s : State) (r : Result) : (s.setResult r).attempt = s.attempt := rfl
@[simp] theorem setResult_timerStart (s : State) (r : Result) : (s.setResult r).timerStart = s.timerStart := rfl
@[simp] theorem setResult_timerDur (s : State) (r : Result) : (s.setResult r).timerDur = s.timerDur := rfl
@[simp] theorem setResult_spacingArmed (s : State) (r : Result) : (s.setResult r).spacingArmed = s.spacingArmed := rfl
@[simp] theorem setResult_spacingStart (s : State) (r : Result) : (s.setResult r).spacingStart = s.spacingStart := rfl
@[simp] theorem setResult_lineBreak (s : State) (r : Result) : (s.setResult r).lineBreak = s.lineBreak := rfl
@[simp] theorem setResult_pq (s : State) (r : Result) : (s.setResult r).pq = s.pq := rfl
@[simp] theorem setResult_nq (s : State) (r : Result) : (s.setResult r).nq = s.nq := rfl
@[simp] theorem setResult_slot (s : State) (r : Result) : (s.setResult r).slot = s.slot := rfl
@[simp] theorem setResult_cfgSpacing (s : State) (r : Result) : (s.setResult r).cfgSpacing = s.cfgSpacing := rfl
@[simp] theorem setResult_cfgTimeout (s : State) (r : Result) : (s.setResult r).cfgTimeout = s.cfgTimeout := rfl
@[simp] theorem setResult_cfgBreak (s : State) (r : Result) : (s.setResult r).cfgBreak = s.cfgBreak := rfl
@[simp] theorem setResult_cfgMaxRetries (s : State) (r : Result) : (s.setResult r).cfgMaxRetries = s.cfgMaxRetries := rfl
@[simp] theorem setResult_cfgCapP (s : State) (r : Result) : (s.setResult r).cfgCapP = s.cfgCapP := rfl
@[simp] theorem setResult_cfgCapN (s : State) (r : Result) : (s.setResult r).cfgCapN = s.cfgCapN := rfl
@[simp] theorem setResult_frPhase (s : State) (r : Result) : (s.setResult r).frPhase = s.frPhase := rfl
@[simp] theorem setResult_frBuf (s : State) (r : Result) : (s.setResult r).frBuf = s.frBuf := rfl
@[simp] theorem setResult_frCount (s : State) (r : Result) : (s.setResult r).frCount = s.frCount := rfl
@[simp] theorem setResult_frDeclLen (s : State) (r : Result) : (s.setResult r).frDeclLen = s.frDeclLen := rfl
@[simp] theorem setResult_rxDone (s : State) (r : Result) : (s.setResult r).rxDone = s.rxDone := rfl
@[simp] theorem setResult_txDone (s : State) (r : Result) : (s.setResult r).txDone = s.txDone := rfl
@[simp] theorem setResult_rxFrame (s : State) (r : Result) : (s.setResult r).rxFrame = s.rxFrame := rfl
@[simp] theorem setResult_txFrame (s : State) (r : Result) : (s.setResult r).txFrame = s.txFrame := rfl
@[simp] theorem setResult_rxin (s : State) (r : Result) : (s.setResult r).rxin = s.rxin := rfl
@[simp] theorem setResult_txAnswers (s : State) (r : Result) : (s.setResult r).txAnswers = s.txAnswers := rfl
@[simp] theorem setResult_txDraws (s : State) (r : Result) : (s.setResult r).txDraws = s.txDraws := rfl
@[simp] theorem setResult_inbox (s : State) (r : Result) : (s.setResult r).inbox = s.inbox := rfl
@[simp] theorem setResult_out (s : State) (r : Result) : (s.setResult r).out = { s.out with result := some r } := rfl

/-! clearSlot -/

@[simp] theorem clearSlot_par (s : State) : s.clearSlot.par = s.par := rfl
@[simp] theorem clearSlot_qstate (s : State) : s.clearSlot.qstate = s.qstate := rfl
@[simp] theorem clearSlot_attempt (s : State) : s.clearSlot.attempt = s.attempt := rfl
@[simp] theorem clearSlot_timerStart (s : State) : s.clearSlot.timerStart = s.timerStart := rfl
@[simp] theorem clearSlot_timerDur (s : State) : s.clearSlot.timerDur = s.timerDur := rfl
@[simp] theorem clearSlot_spacingArmed (s : State) : s.clearSlot.spacingArmed = s.spacingArmed := rfl
@[simp] theorem clearSlot_spacingStart (s : State) : s.clearSlot.spacingStart = s.spacingStart := rfl
@[simp] theorem clearSlot_lineBreak (s : State) : s.clearSlot.lineBreak = s.lineBreak := rfl
@[simp] theorem clearSlot_pq (s : State) : s.clearSlot.pq = s.pq := rfl
@[simp] theorem clearSlot_nq (s : State) : s.clearSlot.nq = s.nq := rfl
@[simp] theorem clearSlot_slot (s : State) : s.clearSlot.slot = InFlight.empty := rfl
@[simp] theorem clearSlot_cfgSpacing (s : State) : s.clearSlot.cfgSpacing = s.cfgSpacing := rfl
@[simp] theorem clearSlot_cfgTimeout (s : State) : s.clearSlot.cfgTimeout = s.cfgTimeout := rfl
@[simp] theorem clearSlot_cfgBreak (s : State) : s.clearSlot.cfgBreak = s.cfgBreak := rfl
@[simp] theorem clearSlot_cfgMaxRetries (s : State) : s.clearSlot.cfgMaxRetries = s.cfgMaxRetries := rfl
@[simp] theorem clearSlot_cfgCapP (s : State) : s.clearSlot.cfgCapP = s.cfgCapP := rfl
@[simp] theorem clearSlot_cfgCapN (s : State) : s.clearSlot.cfgCapN = s.cfgCapN := rfl
@[simp] theorem clearSlot_frPhase (s : State) : s.clearSlot.frPhase = s.frPhase := rfl
@[simp] theorem clearSlot_frBuf (s : State) : s.clearSlot.frBuf = s.frBuf := rfl
@[simp] theorem clearSlot_frCount (s : State) : s.clearSlot.frCount = s.frCount := rfl
@[simp] theorem clearSlot_frDeclLen (s : State) : s.clearSlot.frDeclLen = s.frDeclLen := rfl
@[simp] theorem clearSlot_rxDone (s : State) : s.clearSlot.rxDone = s.rxDone := rfl
@[simp] theorem clearSlot_txDone (s : State) : s.clearSlot.txDone = s.txDone := rfl
@[simp] theorem clearSlot_rxFrame (s : State) : s.clearSlot.rxFrame = s.rxFrame := rfl
@[simp] theorem clearSlot_txFrame (s : State) : s.clearSlot.txFrame = s.txFrame := rfl
@[simp] theorem clearSlot_rxin (s : State) : s.clearSlot.rxin = s.rxin := rfl
@[simp] theorem clearSlot_txAnswers (s : State) : s.clearSlot.txAnswers = s.txAnswers := rfl
@[simp] theorem clearSlot_txDraws (s : State) : s.clearSlot.txDraws = s.txDraws := rfl
@[simp] theorem clearSlot_inbox (s : State) : s.clearSlot.inbox = s.inbox := rfl
@[simp] theorem clearSlot_out (s : State) : s.clearSlot.out = s.out := rfl

/-! sessionClear -/

@[simp] theorem sessionClear_par (s : State) (r : ClearReason) : (sessionClear r s).par = s.par := rfl
@[simp] theorem sessionClear_qstate (s : State) (r : ClearReason) : (sessionClear r s).qstate = qIdle := rfl
@[simp] theorem sessionClear_attempt (s : State) (r : ClearReason) : (sessionClear r s).attempt = 0 := rfl
@[simp] theorem sessionClear_timerStart (s : State) (r : ClearReason) : (sessionClear r s).timerStart = 0 := rfl
@[simp] theorem sessionClear_timerDur (s : State) (r : ClearReason) : (sessionClear r s).timerDur = 0 := rfl
@[simp] theorem sessionClear_spacingArmed (s : State) (r : ClearReason) : (sessionClear r s).spacingArmed = false := rfl
@[simp] theorem sessionClear_spacingStart (s : State) (r : ClearReason) : (sessionClear r s).spacingStart = 0 := rfl
@[simp] theorem sessionClear_lineBreak (s : State) (r : ClearReason) : (sessionClear r s).lineBreak = false := rfl
@[simp] theorem sessionClear_pq (s : State) (r : ClearReason) : (sessionClear r s).pq = [] := rfl
@[simp] theorem sessionClear_nq (s : State) (r : ClearReason) : (sessionClear r s).nq = [] := rfl
@[simp] theorem sessionClear_slot (s : State) (r : ClearReason) : (sessionClear r s).slot = InFlight.empty := rfl
@[simp] theorem sessionClear_cfgSpacing (s : State) (r : ClearReason) : (sessionClear r s).cfgSpacing = s.cfgSpacing := rfl
@[simp] theorem sessionClear_cfgTimeout (s : State) (r : ClearReason) : (sessionClear r s).cfgTimeout = s.cfgTimeout := rfl
@[simp] theorem sessionClear_cfgBreak (s : State) (r : ClearReason) : (sessionClear r s).cfgBreak = s.cfgBreak := rfl
@[simp] theorem sessionClear_cfgMaxRetries (s : State) (r : ClearReason) : (sessionClear r s).cfgMaxRetries = s.cfgMaxRetries := rfl
@[simp] theorem sessionClear_cfgCapP (s : State) (r : ClearReason) : (sessionClear r s).cfgCapP = s.cfgCapP := rfl
@[simp] theorem sessionClear_cfgCapN (s : State) (r : ClearReason) : (sessionClear r s).cfgCapN = s.cfgCapN := rfl
@[simp] theorem sessionClear_frPhase (s : State) (r : ClearReason) : (sessionClear r s).frPhase = s.frPhase := rfl
@[simp] theorem sessionClear_frBuf (s : State) (r : ClearReason) : (sessionClear r s).frBuf = s.frBuf := rfl
@[simp] theorem sessionClear_frCount (s : State) (r : ClearReason) : (sessionClear r s).frCount = s.frCount := rfl
@[simp] theorem sessionClear_frDeclLen (s : State) (r : ClearReason) : (sessionClear r s).frDeclLen = s.frDeclLen := rfl
@[simp] theorem sessionClear_rxDone (s : State) (r : ClearReason) : (sessionClear r s).rxDone = s.rxDone := rfl
@[simp] theorem sessionClear_txDone (s : State) (r : ClearReason) : (sessionClear r s).txDone = s.txDone := rfl
@[simp] theorem sessionClear_rxFrame (s : State) (r : ClearReason) : (sessionClear r s).rxFrame = s.rxFrame := rfl
@[simp] theorem sessionClear_txFrame (s : State) (r : ClearReason) : (sessionClear r s).txFrame = s.txFrame := rfl
@[simp] theorem sessionClear_rxin (s : State) (r : ClearReason) : (sessionClear r s).rxin = s.rxin := rfl
@[simp] theorem sessionClear_txAnswers (s : State) (r : ClearReason) : (sessionClear r s).txAnswers = s.txAnswers := rfl
@[simp] theorem sessionClear_txDraws (s : State) (r : ClearReason) : (sessionClear r s).txDraws = s.txDraws := rfl
@[simp] theorem sessionClear_inbox (s : State) (r : ClearReason) : (sessionClear r s).inbox = s.inbox := rfl
@[simp] theorem sessionClear_out (s : State) (r : ClearReason) : (sessionClear r s).out = { s.out with events := s.out.events ++ [.cleared r] } := rfl

/-! receive -/

@[simp] theorem receive_par (s : State) (b : Bytes) : (receive b s).par = s.par := rfl
@[simp] theorem receive_qstate (s : State) (b : Bytes) : (receive b s).qstate = s.qstate := rfl
@[simp] theorem receive_attempt (s : State) (b : Bytes) : (receive b s).attempt = s.attempt := rfl
@[simp] theorem receive_timerStart (s : State) (b : Bytes) : (receive b s).timerStart = s.timerStart := rfl
@[simp] theorem receive_timerDur (s : State) (b : Bytes) : (receive b s).timerDur = s.timerDur := rfl
@[simp] theorem receive_spacingArmed (s : State) (b : Bytes) : (receive b s).spacingArmed = s.spacingArmed := rfl
@[simp] theorem receive_spacingStart (s : State) (b : Bytes) : (receive b s).spacingStart = s.spacingStart := rfl
@[simp] theorem receive_lineBreak (s : State) (b : Bytes) : (receive b s).lineBreak = s.lineBreak := rfl
@[simp] theorem receive_pq (s : State) (b : Bytes) : (receive b s).pq = s.pq := rfl
@[simp] theorem receive_nq (s : State) (b : Bytes) : (receive b s).nq = s.nq := rfl
@[simp] theorem receive_slot (s : State) (b : Bytes) : (receive b s).slot = s.slot := rfl
@[simp] theorem receive_cfgSpacing (s : State) (b : Bytes) : (receive b s).cfgSpacing = s.cfgSpacing := rfl
@[simp] theorem receive_cfgTimeout (s : State) (b : Bytes) : (receive b s).cfgTimeout = s.cfgTimeout := rfl
@[simp] theorem receive_cfgBreak (s : State) (b : Bytes) : (receive b s).cfgBreak = s.cfgBreak := rfl
@[simp] theorem receive_cfgMaxRetries (s : State) (b : Bytes) : (receive b s).cfgMaxRetries = s.cfgMaxRetries := rfl
@[simp] theorem receive_cfgCapP (s : State) (b : Bytes) : (receive b s).cfgCapP = s.cfgCapP := rfl
@[simp] theorem receive_cfgCapN (s : State) (b : Bytes) : (receive b s).cfgCapN = s.cfgCapN := rfl
@[simp] theorem receive_frPhase (s : State) (b : Bytes) : (receive b s).frPhase = s.frPhase := rfl
@[simp] theorem receive_frBuf (s : State) (b : Bytes) : (receive b s).frBuf = s.frBuf := rfl
@[simp] theorem receive_frCount (s : State) (b : Bytes) : (receive b s).frCount = s.frCount := rfl
@[simp] theorem receive_frDeclLen (s : State) (b : Bytes) : (receive b s).frDeclLen = s.frDeclLen := rfl
@[simp] theorem receive_rxDone (s : State) (b : Bytes) : (receive b s).rxDone = s.rxDone := rfl
@[simp] theorem receive_txDone (s : State) (b : Bytes) : (receive b s).txDone = s.txDone := rfl
@[simp] theorem receive_rxFrame (s : State) (b : Bytes) : (receive b s).rxFrame = s.rxFrame := rfl
@[simp] theorem receive_txFrame (s : State) (b : Bytes) : (receive b s).txFrame = s.txFrame := rfl
@[simp] theorem receive_rxin (s : State) (b : Bytes) : (receive b s).rxin = s.rxin ++ received s.lineBreak b := rfl
@[simp] theorem receive_txAnswers (s : State) (b : Bytes) : (receive b s).txAnswers = s.txAnswers := rfl
@[simp] theorem receive_txDraws (s : State) (b : Bytes) : (receive b s).txDraws = s.txDraws := rfl
@[simp] theorem receive_inbox (s : State) (b : Bytes) : (receive b s).inbox = s.inbox := rfl
@[simp] theorem receive_out (s : State) (b : Bytes) : (receive b s).out = s.out := rfl

/-! clearOneShot -/

@[simp] theorem clearOneShot_par (s : State) : (clearOneShot s).par = s.par := rfl
@[simp] theorem clearOneShot_qstate (s : State) : (clearOneShot s).qstate = s.qstate := rfl
@[simp] theorem clearOneShot_attempt (s : State) : (clearOneShot s).attempt = s.attempt := rfl
@[simp] theorem clearOneShot_timerStart (s : State) : (clearOneShot s).timerStart = s.timerStart := rfl
@[simp] theorem clearOneShot_timerDur (s : State) : (clearOneShot s).timerDur = s.timerDur := rfl
@[simp] theorem clearOneShot_spacingArmed (s : State) : (clearOneShot s).spacingArmed = s.spacingArmed := rfl
@[simp] theorem clearOneShot_spacingStart (s : State) : (clearOneShot s).spacingStart = s.spacingStart := rfl
@[simp] theorem clearOneShot_lineBreak (s : State) : (clearOneShot s).lineBreak = s.lineBreak := rfl
@[simp] theorem clearOneShot_pq (s : State) : (clearOneShot s).pq = s.pq := rfl
@[simp] theorem clearOneShot_nq (s : State) : (clearOneShot s).nq = s.nq := rfl
@[simp] theorem clearOneShot_slot (s : State) : (clearOneShot s).slot = s.slot := rfl
@[simp] theorem clearOneShot_cfgSpacing (s : State) : (clearOneShot s).cfgSpacing = s.cfgSpacing := rfl
@[simp] theorem clearOneShot_cfgTimeout (s : State) : (clearOneShot s).cfgTimeout = s.cfgTimeout := rfl
@[simp] theorem clearOneShot_cfgBreak (s : State) : (clearOneShot s).cfgBreak = s.cfgBreak := rfl
@[simp] theorem clearOneShot_cfgMaxRetries (s : State) : (clearOneShot s).cfgMaxRetries = s.cfgMaxRetries := rfl
@[simp] theorem clearOneShot_cfgCapP (s : State) : (clearOneShot s).cfgCapP = s.cfgCapP := rfl
@[simp] theorem clearOneShot_cfgCapN (s : State) : (clearOneShot s).cfgCapN = s.cfgCapN := rfl
@[simp] theorem clearOneShot_frPhase (s : State) : (clearOneShot s).frPhase = s.frPhase := rfl
@[simp] theorem clearOneShot_frBuf (s : State) : (clearOneShot s).frBuf = s.frBuf := rfl
@[simp] theorem clearOneShot_frCount (s : State) : (clearOneShot s).frCount = s.frCount := rfl
@[simp] theorem clearOneShot_frDeclLen (s : State) : (clearOneShot s).frDeclLen = s.frDeclLen := rfl
@[simp] theorem clearOneShot_rxDone (s : State) : (clearOneShot s).rxDone = false := rfl
@[simp] theorem clearOneShot_txDone (s : State) : (clearOneShot s).txDone = false := rfl
@[simp] theorem clearOneShot_rxFrame (s : State) : (clearOneShot s).rxFrame = s.rxFrame := rfl
@[simp] theorem clearOneShot_txFrame (s : State) : (clearOneShot s).txFrame = s.txFrame := rfl
@[simp] theorem clearOneShot_rxin (s : State) : (clearOneShot s).rxin = s.rxin := rfl
@[simp] theorem clearOneShot_txAnswers (s : State) : (clearOneShot s).txAnswers = s.txAnswers := rfl
@[simp] theorem clearOneShot_txDraws (s : State) : (clearOneShot s).txDraws = s.txDraws := rfl
@[simp] theorem clearOneShot_inbox (s : State) : (clearOneShot s).inbox = s.inbox := rfl
@[simp] theorem clearOneShot_out (s : State) : (clearOneShot s).out = s.out := rfl

/-! framerReset -/

@[simp] theorem framerReset_par (s : State) : (framerReset s).par = s.par := rfl
@[simp] theorem framerReset_qstate (s : State) : (framerReset s).qstate = s.qstate := rfl
@[simp] theorem framerReset_attempt (s : State) : (framerReset s).attempt = s.attempt := rfl
@[simp] theorem framerReset_timerStart (s : State) : (framerReset s).timerStart = s.timerStart := rfl
@[simp] theorem framerReset_timerDur (s : State) : (framerReset s).timerDur = s.timerDur := rfl
@[simp] theorem framerReset_spacingArmed (s : State) : (framerReset s).spacingArmed = s.spacingArmed := rfl
@[simp] theorem framerReset_spacingStart (s : State) : (framerReset s).spacingStart = s.spacingStart := rfl
@[simp] theorem framerReset_lineBreak (s : State) : (framerReset s).lineBreak = s.lineBreak := rfl
@[simp] theorem framerReset_pq (s : State) : (framerReset s).pq = s.pq := rfl
@[simp] theorem framerReset_nq (s : State) : (framerReset s).nq = s.nq := rfl
@[simp] theorem framerReset_slot (s : State) : (framerReset s).slot = s.slot := rfl
@[simp] theorem framerReset_cfgSpacing (s : State) : (framerReset s).cfgSpacing = s.cfgSpacing := rfl
@[simp] theorem framerReset_cfgTimeout (s : State) : (framerReset s).cfgTimeout = s.cfgTimeout := rfl
@[simp] theorem framerReset_cfgBreak (s : State) : (framerReset s).cfgBreak = s.cfgBreak := rfl
@[simp] theorem framerReset_cfgMaxRetries (s : State) : (framerReset s).cfgMaxRetries = s.cfgMaxRetries := rfl
@[simp] theorem framerReset_cfgCapP (s : State) : (framerReset s).cfgCapP = s.cfgCapP := rfl
@[simp] theorem framerReset_cfgCapN (s : State) : (framerReset s).cfgCapN = s.cfgCapN := rfl
@[simp] theorem framerReset_frPhase (s : State) : (framerReset s).frPhase = frIdle := rfl
@[simp] theorem framerReset_frBuf (s : State) : (framerReset s).frBuf = [] := rfl
@[simp] theorem framerReset_frCount (s : State) : (framerReset s).frCount = 0 := rfl
@[simp] theorem framerReset_frDeclLen (s : State) : (framerReset s).frDeclLen = 0 := rfl
@[simp] theorem framerReset_rxDone (s : State) : (framerReset s).rxDone = s.rxDone := rfl
@[simp] theorem framerReset_txDone (s : State) : (framerReset s).txDone = s.txDone := rfl
@[simp] theorem framerReset_rxFrame (s : State) : (framerReset s).rxFrame = s.rxFrame := rfl
@[simp] theorem framerReset_txFrame (s : State) : (framerReset s).txFrame = s.txFrame := rfl
@[simp] theorem framerReset_rxin (s : State) : (framerReset s).rxin = s.rxin := rfl
@[simp] theorem framerReset_txAnswers (s : State) : (framerReset s).txAnswers = s.txAnswers := rfl
@[simp] theorem framerReset_txDraws (s : State) : (framerReset s).txDraws = s.txDraws := rfl
@[simp] theorem framerReset_inbox (s : State) : (framerReset s).inbox = s.inbox := rfl
@[simp] theorem framerReset_out (s : State) : (framerReset s).out = s.out := rfl

/-! startFrame -/

@[simp] theorem startFrame_par (s : State) (ph : BitVec 2) (b : Byte) : (startFrame s ph b).par = s.par := rfl
@[simp] theorem startFrame_qstate (s : State) (ph : BitVec 2) (b : Byte) : (startFrame s ph b).qstate = s.qstate := rfl
@[simp] theorem startFrame_attempt (s : State) (ph : BitVec 2) (b : Byte) : (startFrame s ph b).attempt = s.attempt := rfl
@[simp] theorem startFrame_timerStart (s : State) (ph : BitVec 2) (b : Byte) : (startFrame s ph b).timerStart = s.timerStart := rfl
@[simp] theorem startFrame_timerDur (s : State) (ph : BitVec 2) (b : Byte) : (startFrame s ph b).timerDur = s.timerDur := rfl
@[simp] theorem startFrame_spacingArmed (s : State) (ph : BitVec 2) (b : Byte) : (startFrame s ph b).spacingArmed = s.spacingArmed := rfl
@[simp] theorem startFrame_spacingStart (s : State) (ph : BitVec 2) (b : Byte) : (startFrame s ph b).spacingStart = s.spacingStart := rfl
@[simp] theorem startFrame_lineBreak (s : State) (ph : BitVec 2) (b : Byte) : (startFrame s ph b).lineBreak = s.lineBreak := rfl
@[simp] theorem startFrame_pq (s : State) (ph : BitVec 2) (b : Byte) : (startFrame s ph b).pq = s.pq := rfl
@[simp] theorem startFrame_nq (s : State) (ph : BitVec 2) (b : Byte) : (startFrame s ph b).nq = s.nq := rfl
@[simp] theorem startFrame_slot (s : State) (ph : BitVec 2) (b : Byte) : (startFrame s ph b).slot = s.slot := rfl
@[simp] theorem startFrame_cfgSpacing (s : State) (ph : BitVec 2) (b : Byte) : (startFrame s ph b).cfgSpacing = s.cfgSpacing := rfl
@[simp] theorem startFrame_cfgTimeout (s : State) (ph : BitVec 2) (b : Byte) : (startFrame s ph b).cfgTimeout = s.cfgTimeout := rfl
@[simp] theorem startFrame_cfgBreak (s : State) (ph : BitVec 2) (b : Byte) : (startFrame s ph b).cfgBreak = s.cfgBreak := rfl
@[simp] theorem startFrame_cfgMaxRetries (s : State) (ph : BitVec 2) (b : Byte) : (startFrame s ph b).cfgMaxRetries = s.cfgMaxRetries := rfl
@[simp] theorem startFrame_cfgCapP (s : State) (ph : BitVec 2) (b : Byte) : (startFrame s ph b).cfgCapP = s.cfgCapP := rfl
@[simp] theorem startFrame_cfgCapN (s : State) (ph : BitVec 2) (b : Byte) : (startFrame s ph b).cfgCapN = s.cfgCapN := rfl
@[simp] theorem startFrame_frPhase (s : State) (ph : BitVec 2) (b : Byte) : (startFrame s ph b).frPhase = ph := rfl
@[simp] theorem startFrame_frBuf (s : State) (ph : BitVec 2) (b : Byte) : (startFrame s ph b).frBuf = [b] := rfl
@[simp] theorem startFrame_frCount (s : State) (ph : BitVec 2) (b : Byte) : (startFrame s ph b).frCount = 1 := rfl
@[simp] theorem startFrame_frDeclLen (s : State) (ph : BitVec 2) (b : Byte) : (startFrame s ph b).frDeclLen = s.frDeclLen := rfl
@[simp] theorem startFrame_rxDone (s : State) (ph : BitVec 2) (b : Byte) : (startFrame s ph b).rxDone = s.rxDone := rfl
@[simp] theorem startFrame_txDone (s : State) (ph : BitVec 2) (b : Byte) : (startFrame s ph b).txDone = s.txDone := rfl
@[simp] theorem startFrame_rxFrame (s : State) (ph : BitVec 2) (b : Byte) : (startFrame s ph b).rxFrame = s.rxFrame := rfl
@[simp] theorem startFrame_txFrame (s : State) (ph : BitVec 2) (b : Byte) : (startFrame s ph b).txFrame = s.txFrame := rfl
@[simp] theorem startFrame_rxin (s : State) (ph : BitVec 2) (b : Byte) : (startFrame s ph b).rxin = s.rxin := rfl
@[simp] theorem startFrame_txAnswers (s : State) (ph : BitVec 2) (b : Byte) : (startFrame s ph b).txAnswers = s.txAnswers := rfl
@[simp] theorem startFrame_txDraws (s : State) (ph : BitVec 2) (b : Byte) : (startFrame s ph b).txDraws = s.txDraws := rfl
@[simp] theorem startFrame_inbox (s : State) (ph : BitVec 2) (b : Byte) : (startFrame s ph b).inbox = s.inbox := rfl
@[simp] theorem startFrame_out (s : State) (ph : BitVec 2) (b : Byte) : (startFrame s ph b).out = s.out := rfl

/-! appendByte -/

@[simp] theorem appendByte_par (s : State) (b : Byte) : (appendByte s b).par = s.par := rfl
@[simp] theorem appendByte_qstate (s : State) (b : Byte) : (appendByte s b).qstate = s.qstate := rfl
@[simp] theorem appendByte_attempt (s : State) (b : Byte) : (appendByte s b).attempt = s.attempt := rfl
@[simp] theorem appendByte_timerStart (s : State) (b : Byte) : (appendByte s b).timerStart = s.timerStart := rfl
@[simp] theorem appendByte_timerDur (s : State) (b : Byte) : (appendByte s b).timerDur = s.timerDur := rfl
@[simp] theorem appendByte_spacingArmed (s : State) (b : Byte) : (appendByte s b).spacingArmed = s.spacingArmed := rfl
@[simp] theorem appendByte_spacingStart (s : State) (b : Byte) : (appendByte s b).spacingStart = s.spacingStart := rfl
@[simp] theorem appendByte_lineBreak (s : State) (b : Byte) : (appendByte s b).lineBreak = s.lineBreak := rfl
@[simp] theorem appendByte_pq (s : State) (b : Byte) : (appendByte s b).pq = s.pq := rfl
@[simp] theorem appendByte_nq (s : State) (b : Byte) : (appendByte s b).nq = s.nq := rfl
@[simp] theorem appendByte_slot (s : State) (b : Byte) : (appendByte s b).slot = s.slot := rfl
@[simp] theorem appendByte_cfgSpacing (s : State) (b : Byte) : (appendByte s b).cfgSpacing = s.cfgSpacing := rfl
@[simp] theorem appendByte_cfgTimeout (s : State) (b : Byte) : (appendByte s b).cfgTimeout = s.cfgTimeout := rfl
@[simp] theorem appendByte_cfgBreak (s : State) (b : Byte) : (appendByte s b).cfgBreak = s.cfgBreak := rfl
@[simp] theorem appendByte_cfgMaxRetries (s : State) (b : Byte) : (appendByte s b).cfgMaxRetries = s.cfgMaxRetries := rfl
@[simp] theorem appendByte_cfgCapP (s : State) (b : Byte) : (appendByte s b).cfgCapP = s.cfgCapP := rfl
@[simp] theorem appendByte_cfgCapN (s : State) (b : Byte) : (appendByte s b).cfgCapN = s.cfgCapN := rfl
@[simp] theorem appendByte_frPhase (s : State) (b : Byte) : (appendByte s b).frPhase = s.frPhase := rfl
@[simp] theorem appendByte_frBuf (s : State) (b : Byte) : (appendByte s b).frBuf = s.frBuf ++ [b] := rfl
@[simp] theorem appendByte_frCount (s : State) (b : Byte) : (appendByte s b).frCount = s.frCount + 1 := rfl
@[simp] theorem appendByte_frDeclLen (s : State) (b : Byte) : (appendByte s b).frDeclLen = if s.frCount + 1 = 2 then b else s.frDeclLen := rfl
@[simp] theorem appendByte_rxDone (s : State) (b : Byte) : (appendByte s b).rxDone = s.rxDone := rfl
@[simp] theorem appendByte_txDone (s : State) (b : Byte) : (appendByte s b).txDone = s.txDone := rfl
@[simp] theorem appendByte_rxFrame (s : State) (b : Byte) : (appendByte s b).rxFrame = s.rxFrame := rfl
@[simp] theorem appendByte_txFrame (s : State) (b : Byte) : (appendByte s b).txFrame = s.txFrame := rfl
@[simp] theorem appendByte_rxin (s : State) (b : Byte) : (appendByte s b).rxin = s.rxin := rfl
@[simp] theorem appendByte_txAnswers (s : State) (b : Byte) : (appendByte s b).txAnswers = s.txAnswers := rfl
@[simp] theorem appendByte_txDraws (s : State) (b : Byte) : (appendByte s b).txDraws = s.txDraws := rfl
@[simp] theorem appendByte_inbox (s : State) (b : Byte) : (appendByte s b).inbox = s.inbox := rfl
@[simp] theorem appendByte_out (s : State) (b : Byte) : (appendByte s b).out = s.out := rfl

/-! countAttempt -/

@[simp] theorem countAttempt_par (s : State) : (countAttempt s).par = s.par := rfl
@[simp] theorem countAttempt_qstate (s : State) : (countAttempt s).qstate = s.qstate := rfl
@[simp] theorem countAttempt_attempt (s : State) : (countAttempt s).attempt = s.attempt + 1 := rfl
@[simp] theorem countAttempt_timerStart (s : State) : (countAttempt s).timerStart = s.timerStart := rfl
@[simp] theorem countAttempt_timerDur (s : State) : (countAttempt s).timerDur = s.timerDur := rfl
@[simp] theorem countAttempt_spacingArmed (s : State) : (countAttempt s).spacingArmed = s.spacingArmed := rfl
@[simp] theorem countAttempt_spacingStart (s : State) : (countAttempt s).spacingStart = s.spacingStart := rfl
@[simp] theorem countAttempt_lineBreak (s : State) : (countAttempt s).lineBreak = s.lineBreak := rfl
@[simp] theorem countAttempt_pq (s : State) : (countAttempt s).pq = s.pq := rfl
@[simp] theorem countAttempt_nq (s : State) : (countAttempt s).nq = s.nq := rfl
@[simp] theorem countAttempt_slot (s : State) : (countAttempt s).slot = s.slot := rfl
@[simp] theorem countAttempt_cfgSpacing (s : State) : (countAttempt s).cfgSpacing = s.cfgSpacing := rfl
@[simp] theorem countAttempt_cfgTimeout (s : State) : (countAttempt s).cfgTimeout = s.cfgTimeout := rfl
@[simp] theorem countAttempt_cfgBreak (s : State) : (countAttempt s).cfgBreak = s.cfgBreak := rfl
@[simp] theorem countAttempt_cfgMaxRetries (s : State) : (countAttempt s).cfgMaxRetries = s.cfgMaxRetries := rfl
@[simp] theorem countAttempt_cfgCapP (s : State) : (countAttempt s).cfgCapP = s.cfgCapP := rfl
@[simp] theorem countAttempt_cfgCapN (s : State) : (countAttempt s).cfgCapN = s.cfgCapN := rfl
@[simp] theorem countAttempt_frPhase (s : State) : (countAttempt s).frPhase = s.frPhase := rfl
@[simp] theorem countAttempt_frBuf (s : State) : (countAttempt s).frBuf = s.frBuf := rfl
@[simp] theorem countAttempt_frCount (s : State) : (countAttempt s).frCount = s.frCount := rfl
@[simp] theorem countAttempt_frDeclLen (s : State) : (countAttempt s).frDeclLen = s.frDeclLen := rfl
@[simp] theorem countAttempt_rxDone (s : State) : (countAttempt s).rxDone = s.rxDone := rfl
@[simp] theorem countAttempt_txDone (s : State) : (countAttempt s).txDone = s.txDone := rfl
@[simp] theorem countAttempt_rxFrame (s : State) : (countAttempt s).rxFrame = s.rxFrame := rfl
@[simp] theorem countAttempt_txFrame (s : State) : (countAttempt s).txFrame = s.txFrame := rfl
@[simp] theorem countAttempt_rxin (s : State) : (countAttempt s).rxin = s.rxin := rfl
@[simp] theorem countAttempt_txAnswers (s : State) : (countAttempt s).txAnswers = s.txAnswers := rfl
@[simp] theorem countAttempt_txDraws (s : State) : (countAttempt s).txDraws = s.txDraws := rfl
@[simp] theorem countAttempt_inbox (s : State) : (countAttempt s).inbox = s.inbox := rfl
@[simp] theorem countAttempt_out (s : State) : (countAttempt s).out = s.out := rfl

/-! attemptSent -/

@[simp] theorem attemptSent_par (s : State) (now : U32) : (attemptSent now s).par = s.par := rfl
@[simp] theorem attemptSent_qstate (s : State) (now : U32) : (attemptSent now s).qstate = qSending := rfl
@[simp] theorem attemptSent_attempt (s : State) (now : U32) : (attemptSent now s).attempt = s.attempt := rfl
@[simp] theorem attemptSent_timerStart (s : State) (now : U32) : (attemptSent now s).timerStart = now := rfl
@[simp] theorem attemptSent_timerDur (s : State) (now : U32) : (attemptSent now s).timerDur = s.cfgTimeout := rfl
@[simp] theorem attemptSent_spacingArmed (s : State) (now : U32) : (attemptSent now s).spacingArmed = s.spacingArmed := rfl
@[simp] theorem attemptSent_spacingStart (s : State) (now : U32) : (attemptSent now s).spacingStart = s.spacingStart := rfl
@[simp] theorem attemptSent_lineBreak (s : State) (now : U32) : (attemptSent now s).lineBreak = s.lineBreak := rfl
@[simp] theorem attemptSent_pq (s : State) (now : U32) : (attemptSent now s).pq = s.pq := rfl
@[simp] theorem attemptSent_nq (s : State) (now : U32) : (attemptSent now s).nq = s.nq := rfl
@[simp] theorem attemptSent_slot (s : State) (now : U32) : (attemptSent now s).slot = s.slot := rfl
@[simp] theorem attemptSent_cfgSpacing (s : State) (now : U32) : (attemptSent now s).cfgSpacing = s.cfgSpacing := rfl
@[simp] theorem attemptSent_cfgTimeout (s : State) (now : U32) : (attemptSent now s).cfgTimeout = s.cfgTimeout := rfl
@[simp] theorem attemptSent_cfgBreak (s : State) (now : U32) : (attemptSent now s).cfgBreak = s.cfgBreak := rfl
@[simp] theorem attemptSent_cfgMaxRetries (s : State) (now : U32) : (attemptSent now s).cfgMaxRetries = s.cfgMaxRetries := rfl
@[simp] theorem attemptSent_cfgCapP (s : State) (now : U32) : (attemptSent now s).cfgCapP = s.cfgCapP := rfl
@[simp] theorem attemptSent_cfgCapN (s : State) (now : U32) : (attemptSent now s).cfgCapN = s.cfgCapN := rfl
@[simp] theorem attemptSent_frPhase (s : State) (now : U32) : (attemptSent now s).frPhase = s.frPhase := rfl
@[simp] theorem attemptSent_frBuf (s : State) (now : U32) : (attemptSent now s).frBuf = s.frBuf := rfl
@[simp] theorem attemptSent_frCount (s : State) (now : U32) : (attemptSent now s).frCount = s.frCount := rfl
@[simp] theorem attemptSent_frDeclLen (s : State) (now : U32) : (attemptSent now s).frDeclLen = s.frDeclLen := rfl
@[simp] theorem attemptSent_rxDone (s : State) (now : U32) : (attemptSent now s).rxDone = s.rxDone := rfl
@[simp] theorem attemptSent_txDone (s : State) (now : U32) : (attemptSent now s).txDone = s.txDone := rfl
@[simp] theorem attemptSent_rxFrame (s : State) (now : U32) : (attemptSent now s).rxFrame = s.rxFrame := rfl
@[simp] theorem attemptSent_txFrame (s : State) (now : U32) : (attemptSent now s).txFrame = s.txFrame := rfl
@[simp] theorem attemptSent_rxin (s : State) (now : U32) : (attemptSent now s).rxin = s.rxin := rfl
@[simp] theorem attemptSent_txAnswers (s : State) (now : U32) : (attemptSent now s).txAnswers = s.txAnswers := rfl
@[simp] theorem attemptSent_txDraws (s : State) (now : U32) : (attemptSent now s).txDraws = s.txDraws := rfl
@[simp] theorem attemptSent_inbox (s : State) (now : U32) : (attemptSent now s).inbox = s.inbox := rfl
@[simp] theorem attemptSent_out (s : State) (now : U32) : (attemptSent now s).out = { s.out with events := s.out.events ++ [.transmitted s.slot.tag s.attempt] } := rfl

/-! endExchange -/

@[simp] theorem endExchange_par (s : State) (now : U32) : (endExchange now s).par = s.par := rfl
@[simp] theorem endExchange_qstate (s : State) (now : U32) : (endExchange now s).qstate = qIdle := rfl
@[simp] theorem endExchange_attempt (s : State) (now : U32) : (endExchange now s).attempt = 0 := rfl
@[simp] theorem endExchange_timerStart (s : State) (now : U32) : (endExchange now s).timerStart = s.timerStart := rfl
@[simp] theorem endExchange_timerDur (s : State) (now : U32) : (endExchange now s).timerDur = s.timerDur := rfl
@[simp] theorem endExchange_spacingArmed (s : State) (now : U32) : (endExchange now s).spacingArmed = true := rfl
@[simp] theorem endExchange_spacingStart (s : State) (now : U32) : (endExchange now s).spacingStart = now := rfl
@[simp] theorem endExchange_lineBreak (s : State) (now : U32) : (endExchange now s).lineBreak = s.lineBreak := rfl
@[simp] theorem endExchange_pq (s : State) (now : U32) : (endExchange now s).pq = s.pq := rfl
@[simp] theorem endExchange_nq (s : State) (now : U32) : (endExchange now s).nq = s.nq := rfl
@[simp] theorem endExchange_slot (s : State) (now : U32) : (endExchange now s).slot = InFlight.empty := rfl
@[simp] theorem endExchange_cfgSpacing (s : State) (now : U32) : (endExchange now s).cfgSpacing = s.cfgSpacing := rfl
@[simp] theorem endExchange_cfgTimeout (s : State) (now : U32) : (endExchange now s).cfgTimeout = s.cfgTimeout := rfl
@[simp] theorem endExchange_cfgBreak (s : State) (now : U32) : (endExchange now s).cfgBreak = s.cfgBreak := rfl
@[simp] theorem endExchange_cfgMaxRetries (s : State) (now : U32) : (endExchange now s).cfgMaxRetries = s.cfgMaxRetries := rfl
@[simp] theorem endExchange_cfgCapP (s : State) (now : U32) : (endExchange now s).cfgCapP = s.cfgCapP := rfl
@[simp] theorem endExchange_cfgCapN (s : State) (now : U32) : (endExchange now s).cfgCapN = s.cfgCapN := rfl
@[simp] theorem endExchange_frPhase (s : State) (now : U32) : (endExchange now s).frPhase = s.frPhase := rfl
@[simp] theorem endExchange_frBuf (s : State) (now : U32) : (endExchange now s).frBuf = s.frBuf := rfl
@[simp] theorem endExchange_frCount (s : State) (now : U32) : (endExchange now s).frCount = s.frCount := rfl
@[simp] theorem endExchange_frDeclLen (s : State) (now : U32) : (endExchange now s).frDeclLen = s.frDeclLen := rfl
@[simp] theorem endExchange_rxDone (s : State) (now : U32) : (endExchange now s).rxDone = s.rxDone := rfl
@[simp] theorem endExchange_txDone (s : State) (now : U32) : (endExchange now s).txDone = s.txDone := rfl
@[simp] theorem endExchange_rxFrame (s : State) (now : U32) : (endExchange now s).rxFrame = s.rxFrame := rfl
@[simp] theorem endExchange_txFrame (s : State) (now : U32) : (endExchange now s).txFrame = s.txFrame := rfl
@[simp] theorem endExchange_rxin (s : State) (now : U32) : (endExchange now s).rxin = s.rxin := rfl
@[simp] theorem endExchange_txAnswers (s : State) (now : U32) : (endExchange now s).txAnswers = s.txAnswers := rfl
@[simp] theorem endExchange_txDraws (s : State) (now : U32) : (endExchange now s).txDraws = s.txDraws := rfl
@[simp] theorem endExchange_inbox (s : State) (now : U32) : (endExchange now s).inbox = s.inbox := rfl
@[simp] theorem endExchange_out (s : State) (now : U32) : (endExchange now s).out = s.out := rfl

/-! answerTaken -/

@[simp] theorem answerTaken_par (s : State) : s.answerTaken.par = s.par := rfl
@[simp] theorem answerTaken_qstate (s : State) : s.answerTaken.qstate = s.qstate := rfl
@[simp] theorem answerTaken_attempt (s : State) : s.answerTaken.attempt = s.attempt := rfl
@[simp] theorem answerTaken_timerStart (s : State) : s.answerTaken.timerStart = s.timerStart := rfl
@[simp] theorem answerTaken_timerDur (s : State) : s.answerTaken.timerDur = s.timerDur := rfl
@[simp] theorem answerTaken_spacingArmed (s : State) : s.answerTaken.spacingArmed = s.spacingArmed := rfl
@[simp] theorem answerTaken_spacingStart (s : State) : s.answerTaken.spacingStart = s.spacingStart := rfl
@[simp] theorem answerTaken_lineBreak (s : State) : s.answerTaken.lineBreak = s.lineBreak := rfl
@[simp] theorem answerTaken_pq (s : State) : s.answerTaken.pq = s.pq := rfl
@[simp] theorem answerTaken_nq (s : State) : s.answerTaken.nq = s.nq := rfl
@[simp] theorem answerTaken_slot (s : State) : s.answerTaken.slot = s.slot := rfl
@[simp] theorem answerTaken_cfgSpacing (s : State) : s.answerTaken.cfgSpacing = s.cfgSpacing := rfl
@[simp] theorem answerTaken_cfgTimeout (s : State) : s.answerTaken.cfgTimeout = s.cfgTimeout := rfl
@[simp] theorem answerTaken_cfgBreak (s : State) : s.answerTaken.cfgBreak = s.cfgBreak := rfl
@[simp] theorem answerTaken_cfgMaxRetries (s : State) : s.answerTaken.cfgMaxRetries = s.cfgMaxRetries := rfl
@[simp] theorem answerTaken_cfgCapP (s : State) : s.answerTaken.cfgCapP = s.cfgCapP := rfl
@[simp] theorem answerTaken_cfgCapN (s : State) : s.answerTaken.cfgCapN = s.cfgCapN := rfl
@[simp] theorem answerTaken_frPhase (s : State) : s.answerTaken.frPhase = s.frPhase := rfl
@[simp] theorem answerTaken_frBuf (s : State) : s.answerTaken.frBuf = s.frBuf := rfl
@[simp] theorem answerTaken_frCount (s : State) : s.answerTaken.frCount = s.frCount := rfl
@[simp] theorem answerTaken_frDeclLen (s : State) : s.answerTaken.frDeclLen = s.frDeclLen := rfl
@[simp] theorem answerTaken_rxDone (s : State) : s.answerTaken.rxDone = s.rxDone := rfl
@[simp] theorem answerTaken_txDone (s : State) : s.answerTaken.txDone = s.txDone := rfl
@[simp] theorem answerTaken_rxFrame (s : State) : s.answerTaken.rxFrame = s.rxFrame := rfl
@[simp] theorem answerTaken_txFrame (s : State) : s.answerTaken.txFrame = s.txFrame := rfl
@[simp] theorem answerTaken_rxin (s : State) : s.answerTaken.rxin = s.rxin := rfl
@[simp] theorem answerTaken_txAnswers (s : State) : s.answerTaken.txAnswers = s.txAnswers.tail := rfl
@[simp] theorem answerTaken_txDraws (s : State) : s.answerTaken.txDraws = if s.txAnswers = [] then s.txDraws + 1 else s.txDraws := rfl
@[simp] theorem answerTaken_inbox (s : State) : s.answerTaken.inbox = s.inbox := rfl
@[simp] theorem answerTaken_out (s : State) : s.answerTaken.out = s.out := rfl

/-! the two queues and the two capacities -/

@[simp] theorem queue_prio (s : State) : s.queue .prio = s.pq := rfl
@[simp] theorem queue_norm (s : State) : s.queue .norm = s.nq := rfl
@[simp] theorem setQueue_prio (s : State) (q : List Entry) : s.setQueue .prio q = { s with pq := q } := rfl
@[simp] theorem setQueue_norm (s : State) (q : List Entry) : s.setQueue .norm q = { s with nq := q } := rfl
@[simp] theorem capacity_prio (s : State) : s.capacity .prio = s.cfgCapP := rfl
@[simp] theorem capacity_norm (s : State) : s.capacity .norm = s.cfgCapN := rfl
@[simp] theorem depth_prio (s : State) : s.depth .prio = s.par.qdepthP := rfl
@[simp] theorem depth_norm (s : State) : s.depth .norm = s.par.qdepthN := rfl

/-- A step that begins forgets the outputs of the step before. -/
@[simp] theorem begin_begin (s : State) : s.begin.begin = s.begin := rfl

end Sys2Proof.Machine
end

