-- ==== Sys2Proof/Laws/Ops.lean ====
section
/-! SUPPORT. What each shared operation can do, said once. -/

namespace Sys2Proof.Machine

open Host (Outcome)

theorem codesLegal_begin (s : State) : s.begin.CodesLegal ↔ s.CodesLegal := Iff.rfl

theorem whenCodesLegal_of_legal {s : State} (h : s.CodesLegal) (o : Outcome State Fault Refusal) :
    whenCodesLegal s o = o := by
  unfold whenCodesLegal
  rw [if_neg (by omega), if_neg (by omega)]

/-- A step goes on exactly from a state without reserved codes, to what the operation leaves. -/
theorem runOp_next {op : State → Except ErrCode (State × Value)} {s t : State} :
    runOp op s = .next t ↔ s.CodesLegal ∧ finish s.begin (op s.begin) = t := by
  unfold runOp
  constructor
  · intro h
    by_cases hl : s.CodesLegal
    · rw [whenCodesLegal_of_legal hl] at h
      exact ⟨hl, by injection h⟩
    · unfold whenCodesLegal at h
      split at h
      · cases h
      · split at h
        · cases h
        · exact absurd ⟨by omega, by omega⟩ hl
  · rintro ⟨hl, rfl⟩
    exact whenCodesLegal_of_legal hl _

theorem runOp_of_legal {op : State → Except ErrCode (State × Value)} {s : State} (h : s.CodesLegal) :
    runOp op s = .next (finish s.begin (op s.begin)) := runOp_next.2 ⟨h, rfl⟩

@[simp] theorem finish_ok (s t : State) (v : Value) : finish s (.ok (t, v)) = t.setResult (.ok v) := rfl

@[simp] theorem finish_error (s : State) (e : ErrCode) : finish s (.error e) = s.setResult (.raise e) := rfl

/-- A raised operation leaves the state as it found it, with its code for a result (R201). -/
@[simp] theorem begin_setResult (s : State) (r : Result) : s.begin.setResult r = s.answer r := rfl

theorem hasCmd_iff {c : Bytes} {q : List Entry} : hasCmd c q = true ↔ ∃ e ∈ q, e.cmd = c := by
  simp [hasCmd]

/-- Every case of `EnqueueCore` (R142). -/
theorem enqueueCore_cases (q : Queue) (c : Bytes) (loop : Bool) (tag : Option U16) (s : State) :
    ((c.length = 0 ∨ s.par.cmdMaxBytes < c.length) ∧ enqueueCore q c loop tag s = .error .badArg) ∨
    ((s.capacity q).toNat ≤ (s.queue q).length ∧ enqueueCore q c loop tag s = .error .queueFull) ∨
    ((∃ e ∈ s.queue q, e.cmd = c) ∧ enqueueCore q c loop tag s = .error .duplicate) ∨
    (s.CommandLegal c ∧ (s.queue q).length < (s.capacity q).toNat ∧ (∀ e ∈ s.queue q, e.cmd ≠ c) ∧
      enqueueCore q c loop tag s =
        .ok (s.setQueue q (s.queue q ++ [{ cmd := c, loop := loop, tag := tag }]))) := by
  unfold enqueueCore
  split
  · exact .inl ⟨‹_›, rfl⟩
  · split
    · exact .inr (.inl ⟨‹_›, rfl⟩)
    · split
      · exact .inr (.inr (.inl ⟨hasCmd_iff.1 ‹_›, rfl⟩))
      · rename_i hb hf hd
        refine .inr (.inr (.inr ⟨⟨by omega, by omega⟩, by omega, fun e he hc => hd ?_, rfl⟩))
        exact hasCmd_iff.2 ⟨e, he, hc⟩

/-- Every case of `DequeueNext()` (R148). -/
theorem dequeueNext_cases (s : State) :
    (s.pq = [] ∧ s.nq = [] ∧ dequeueNext s = none) ∨
    (∃ e rest, s.pq = e :: rest ∧ dequeueNext s = some (e, .prio, { s with pq := rest })) ∨
    (∃ e rest, s.pq = [] ∧ s.nq = e :: rest ∧ dequeueNext s = some (e, .norm, { s with nq := rest })) := by
  unfold dequeueNext
  rcases hp : s.pq with _ | ⟨e, rest⟩
  · rcases hn : s.nq with _ | ⟨e, rest⟩
    · exact .inl ⟨rfl, rfl, rfl⟩
    · exact .inr (.inr ⟨e, rest, rfl, rfl, by simp [← hp]⟩)
  · exact .inr (.inl ⟨e, rest, rfl, rfl⟩)

/-- The answer to a transmission: the next scripted one, or a free draw. -/
theorem drawTxOk_eq (s : State) : drawTxOk s = (s.nextTxOk, s.answerTaken) := by
  unfold drawTxOk State.nextTxOk State.answerTaken
  rcases s.txAnswers with _ | ⟨a, rest⟩ <;> simp

theorem transmit_eq (f : Bytes) (s : State) :
    transmit f s = (s.nextTxOk, State.answerTaken { s with out := { s.out with sent := s.out.sent ++ [f] } }) :=
  drawTxOk_eq _

/-- A fatal error emits its two events and leaves the cleared session (R207, R208). -/
theorem failSession_eq (reason : FailReason) (s : State) :
    failSession reason s =
      { s.cleared with
        out := { s.out with
          events := s.out.events ++ [.failed s.slot.tag reason s.attempt] ++ [.cleared reason.toClear] } } := rfl

theorem sessionClear_eq (reason : ClearReason) (s : State) :
    sessionClear reason s =
      { s.cleared with out := { s.out with events := s.out.events ++ [.cleared reason] } } := rfl

end Sys2Proof.Machine
end

