-- ==== Sys2Proof/Laws/Codec.lean ====
section
/-! SUPPORT. The checksum and the shape of an encoded frame. -/

namespace Sys2Proof

@[simp] theorem xorFold_nil : xorFold [] = 0 := rfl

@[simp] theorem xorFold_cons (b : Byte) (s : Bytes) : xorFold (b :: s) = b ^^^ xorFold s := rfl

theorem xorFold_append (s t : Bytes) : xorFold (s ++ t) = xorFold s ^^^ xorFold t := by
  induction s with
  | nil => simp
  | cons b s ih => simp [ih, BitVec.xor_assoc]

theorem foldl_xor (s : Bytes) (a : Byte) : s.foldl (· ^^^ ·) a = a ^^^ xorFold s := by
  induction s generalizing a with
  | nil => simp
  | cons b s ih => simp [ih, BitVec.xor_assoc]

theorem xorFold_eq_foldl (s : Bytes) : xorFold s = s.foldl (· ^^^ ·) 0 := by
  simp [foldl_xor]

theorem encodeFrame_eq (h : Byte) (c : Bytes) :
    encodeFrame h c = h :: lengthByte c :: (c ++ [xorFold (frameHead h c)]) := rfl

theorem encodeFrame_length (h : Byte) (c : Bytes) : (encodeFrame h c).length = c.length + 3 := by
  simp [encodeFrame, frameHead]

@[simp] theorem byteAt_cons_zero (b : Byte) (s : Bytes) : byteAt (b :: s) 0 = b := rfl

@[simp] theorem byteAt_cons_succ (b : Byte) (s : Bytes) (i : Nat) : byteAt (b :: s) (i + 1) = byteAt s i := rfl

theorem ofBe16_be16 (v : U16) : ofBe16 (v.extractLsb' 8 8) (v.extractLsb' 0 8) = v := by
  unfold ofBe16
  ext i hi
  simp only [BitVec.getElem_append, BitVec.getElem_extractLsb']
  split
  · simp [BitVec.getLsbD_eq_getElem hi]
  · simp [show 8 + (i - 8) = i by omega, BitVec.getLsbD_eq_getElem hi]

namespace Machine

/-- `Decode` accepts exactly what passes every check of R102, and its record is R109's. -/
theorem decodeFrame_ok {s : Bytes} {cmd idx : Option Byte} {minLen : Option U16} {r : FrameRecord} :
    decodeFrame s cmd idx minLen = .ok r ↔
      4 ≤ s.length ∧ belowMin minLen s.length = false ∧ (byteAt s 1).toNat = s.length - 2 ∧
        byteAt s (s.length - 1) = xorFold (s.take (s.length - 1)) ∧
        (isNakByte (byteAt s 2) = true ∨
          differs cmd (maskAck (byteAt s 2)) = false ∧ differs idx (byteAt s 3) = false) ∧
        frameRecord s = r := by
  unfold decodeFrame
  split_ifs with h1 h2 h3 h4 h5 h6 h7 <;> simp_all

end Machine

end Sys2Proof
end

