-- ==== Sys2Proof/Laws/Framer.lean ====
section
/-! SUPPORT. What one byte and one POLL do to the framer. -/

namespace Sys2Proof.Machine

/-- Every case of `FramerByte(b)` (R124). -/
theorem framerByte_cases (b : Byte) (s : State) :
    (s.frPhase = frIdle ∧ b = s.par.txHeader ∧ framerByte b s = (startFrame s frAccTx b, false)) ∨
    (s.frPhase = frIdle ∧ b ≠ s.par.txHeader ∧ b = s.par.rxHeader ∧
      framerByte b s = (startFrame s frAccRx b, false)) ∨
    (s.frPhase = frIdle ∧ b ≠ s.par.txHeader ∧ b ≠ s.par.rxHeader ∧ framerByte b s = (s, false)) ∨
    (s.frPhase ≠ frIdle ∧ frameEnds (appendByte s b) = true ∧
      framerByte b s = (completeFrame (appendByte s b), true)) ∨
    (s.frPhase ≠ frIdle ∧ frameEnds (appendByte s b) = false ∧ framerByte b s = (appendByte s b, false)) := by
  unfold framerByte
  by_cases hp : s.frPhase = frIdle
  · rw [if_pos hp]
    by_cases ht : b = s.par.txHeader
    · rw [if_pos ht]
      exact .inl ⟨hp, ht, rfl⟩
    · rw [if_neg ht]
      by_cases hr : b = s.par.rxHeader
      · rw [if_pos hr]
        exact .inr (.inl ⟨hp, ht, hr, rfl⟩)
      · rw [if_neg hr]
        exact .inr (.inr (.inl ⟨hp, ht, hr, rfl⟩))
  · rw [if_neg hp]
    cases he : frameEnds (appendByte s b)
    · exact .inr (.inr (.inr (.inr ⟨hp, rfl, rfl⟩)))
    · exact .inr (.inr (.inr (.inl ⟨hp, rfl, rfl⟩)))

@[simp] theorem framerLoop_nil (s : State) : framerLoop [] s = { s with rxin := [] } := rfl

theorem framerLoop_cons (r : Received) (rest : List Received) (s : State) :
    framerLoop (r :: rest) s =
      if r.inBreak then framerLoop rest s
      else if (framerByte r.byte s).2 then { (framerByte r.byte s).1 with rxin := rest }
      else framerLoop rest (framerByte r.byte s).1 := rfl

theorem framerLoop_cons_traffic (b : Byte) (rest : List Received) (s : State) :
    framerLoop (⟨b, false⟩ :: rest) s =
      if (framerByte b s).2 then { (framerByte b s).1 with rxin := rest }
      else framerLoop rest (framerByte b s).1 := rfl

/-- A byte of a hold is dropped (R127). -/
theorem framerLoop_cons_break (b : Byte) (rest : List Received) (s : State) :
    framerLoop (⟨b, true⟩ :: rest) s = framerLoop rest s := rfl

/-- `FramerByte` leaves everything but the framer's registers alone. -/
theorem framerByte_only (b : Byte) (s : State) :
    (framerByte b s).1 =
      { s with
        frPhase := (framerByte b s).1.frPhase, frBuf := (framerByte b s).1.frBuf,
        frCount := (framerByte b s).1.frCount, frDeclLen := (framerByte b s).1.frDeclLen,
        rxDone := (framerByte b s).1.rxDone, txDone := (framerByte b s).1.txDone,
        rxFrame := (framerByte b s).1.rxFrame, txFrame := (framerByte b s).1.txFrame } := by
  unfold framerByte startFrame completeFrame framerReset appendByte
  split_ifs <;> rfl

/-- With the bus held low phase B only empties `RXIN` (R127). -/
theorem framerPhase_of_break {s : State} (h : s.lineBreak = true) : framerPhase s = { s with rxin := [] } := by
  simp [framerPhase, h]

theorem framerPhase_of_released {s : State} (h : s.lineBreak = false) : framerPhase s = framerLoop s.rxin s := by
  simp [framerPhase, h]

/-- The framer reads no output port and writes none. -/
theorem framerByte_out (b : Byte) (s : State) (o : Out) :
    framerByte b { s with out := o } = ({ (framerByte b s).1 with out := o }, (framerByte b s).2) := by
  unfold framerByte startFrame completeFrame framerReset
  simp only
  have e : frameEnds (appendByte { s with out := o } b) = frameEnds (appendByte s b) := rfl
  rw [e]
  split_ifs <;> first | rfl | skip
  all_goals (unfold appendByte at *; dsimp only at *; first | rfl | contradiction)

theorem framerLoop_out (bs : List Received) (s : State) (o : Out) :
    framerLoop bs { s with out := o } = { framerLoop bs s with out := o } := by
  induction bs generalizing s with
  | nil => rfl
  | cons b bs ih =>
    rw [framerLoop_cons, framerLoop_cons, framerByte_out]
    split
    · exact ih _
    · dsimp only
      split
      · rfl
      · exact ih _

/-- The loop takes its bytes as an argument: what `RXIN` holds meanwhile does not matter. -/
theorem framerLoop_rxin (bs : List Received) (s : State) (x : List Received) :
    framerLoop bs { s with rxin := x } = framerLoop bs s := by
  induction bs generalizing s x with
  | nil => rfl
  | cons b bs ih =>
    rw [framerLoop_cons, framerLoop_cons]
    have h : framerByte b.byte { s with rxin := x } =
        ({ (framerByte b.byte s).1 with rxin := x }, (framerByte b.byte s).2) := by
      unfold framerByte startFrame completeFrame framerReset
      simp only
      have e : frameEnds (appendByte { s with rxin := x } b.byte) = frameEnds (appendByte s b.byte) := rfl
      rw [e]
      split_ifs <;> first | rfl | skip
      all_goals (unfold appendByte at *; dsimp only at *; first | rfl | contradiction)
    rw [h]
    split
    · exact ih _ _
    · dsimp only
      split
      · rfl
      · exact ih _ _

/-- The bytes of a hold make no difference to what is framed: the loop without them does the same, and leaves what the
loop with them leaves, without them (R127). -/
theorem framerLoop_filter (bs : List Received) (s : State) :
    framerLoop (bs.filter fun r => !r.inBreak) s =
      { framerLoop bs s with rxin := (framerLoop bs s).rxin.filter fun r => !r.inBreak } := by
  induction bs generalizing s with
  | nil => rfl
  | cons r bs ih =>
    obtain ⟨b, k⟩ := r
    cases k with
    | true => exact ih s
    | false =>
      show framerLoop (⟨b, false⟩ :: bs.filter fun r => !r.inBreak) s = _
      rw [framerLoop_cons_traffic, framerLoop_cons_traffic]
      split
      · rfl
      · exact ih _

end Sys2Proof.Machine
end

