-- ==== Sys2Proof/Laws/Sequencer.lean ====
section
/-! SUPPORT. What each state action of the sequencer can do, said once. -/

namespace Sys2Proof.Machine

/-- Both outcomes of a transmission (R164). -/
theorem startAttempt_eq (now : U32) (s : State) :
    startAttempt now s =
      if s.nextTxOk then
        attemptSent now (State.answerTaken { s with out := { s.out with sent := s.out.sent ++ [s.slot.txFrame] } })
      else
        failSession .txFail
          (State.answerTaken { s with out := { s.out with sent := s.out.sent ++ [s.slot.txFrame] } }) := by
  unfold startAttempt
  rw [transmit_eq]
  cases s.nextTxOk <;> rfl

/-- The loop re-enqueue changes at most the queue the command came from, by one entry at its tail (R167). -/
theorem loopRequeue_cases (s : State) :
    loopRequeue s = s ∨
    (s.CommandLegal s.slot.cmd ∧ (s.queue s.slot.origin).length < (s.capacity s.slot.origin).toNat ∧
      (∀ e ∈ s.queue s.slot.origin, e.cmd ≠ s.slot.cmd) ∧
      loopRequeue s =
        s.setQueue s.slot.origin
          (s.queue s.slot.origin ++ [{ cmd := s.slot.cmd, loop := true, tag := s.slot.tag }])) := by
  unfold loopRequeue
  rcases enqueueCore_cases s.slot.origin s.slot.cmd true s.slot.tag s with
    ⟨_, h⟩ | ⟨_, h⟩ | ⟨_, h⟩ | ⟨hc, hl, hd, h⟩ <;> rw [h]
  · exact .inl rfl
  · exact .inl rfl
  · exact .inl rfl
  · exact .inr ⟨hc, hl, hd, rfl⟩

theorem idleAction_of_empty {s : State} (now : U32) (hp : s.pq = []) (hn : s.nq = []) : idleAction now s = s := by
  simp [idleAction, hp, hn]

theorem timeoutCheck_eq (now : U32) (s : State) :
    timeoutCheck now s =
      if timerElapsed s now then { s.emit (.timeout s.slot.tag s.attempt) with qstate := qBreakSet } else s := rfl

theorem stateAction_idle {s : State} (now : U32) (h : s.qstate = qIdle) : stateAction now s = idleAction now s := by
  simp [stateAction, h]

theorem stateAction_sending {s : State} (now : U32) (h : s.qstate = qSending) :
    stateAction now s = sendingAction now s := by
  simp [stateAction, h]

theorem stateAction_breakSet {s : State} (now : U32) (h : s.qstate = qBreakSet) :
    stateAction now s = breakSetAction now s := by
  simp [stateAction, h]

theorem stateAction_breakReset {s : State} (now : U32) (h : s.qstate = qBreakReset) :
    stateAction now s = breakResetAction now s := by
  simp [stateAction, h]

theorem stateAction_retry {s : State} (now : U32) (h : s.qstate = qRetry) :
    stateAction now s = retryAction now s := by
  simp [stateAction, h]

theorem elapsed_iff (start dur now : U32) : elapsed start dur now = true ↔ dur.toNat ≤ (now - start).toNat := by
  simp [elapsed]

/-- The two phases before the state action read no output port (R160). -/
theorem framed_begin (s : State) : framed s.begin = (framed s).begin := by
  unfold framed framerPhase
  show (if s.lineBreak then _ else _) = _
  rw [show (clearOneShot s).lineBreak = s.lineBreak from rfl]
  split
  · rfl
  · exact framerLoop_out _ (clearOneShot s) Out.empty

/-- Every case of the IDLE action (R162): nothing, or the attempt of the dispatched entry. -/
theorem idleAction_cases (now : U32) (s : State) :
    idleAction now s = s ∨
    ((s.spacingArmed = false ∨ s.cfgSpacing.toNat ≤ (now - s.spacingStart).toNat) ∧ ∃ e o rest,
      ((o = .prio ∧ s.pq = e :: rest) ∨ (o = .norm ∧ s.pq = [] ∧ s.nq = e :: rest)) ∧
      idleAction now s = startAttempt now (loadSlot e o (s.setQueue o rest))) := by
  unfold idleAction
  split
  · exact .inl rfl
  · split
    · rename_i h1 h2
      refine .inr ⟨?_, ?_⟩
      · rw [spacingHolds, Bool.or_eq_true, elapsed_iff] at h2
        rcases h2 with h2 | h2
        · exact .inl (by simpa only [Bool.not_eq_true'] using h2)
        · exact .inr h2
      · unfold dispatch
        rcases dequeueNext_cases s with ⟨hp, hn, h⟩ | ⟨e, rest, hp, h⟩ | ⟨e, rest, hp, hn, h⟩ <;> rw [h]
        · rw [hp, hn] at h1
          exact absurd rfl h1
        · exact ⟨e, .prio, rest, .inl ⟨rfl, hp⟩, rfl⟩
        · exact ⟨e, .norm, rest, .inr ⟨rfl, hp, hn⟩, rfl⟩
    · exact .inl rfl

/-- Both cases of the timeout test (R169). -/
theorem timeoutCheck_cases (now : U32) (s : State) :
    timeoutCheck now s = s ∨
    (s.timerDur.toNat ≤ (now - s.timerStart).toNat ∧
      timeoutCheck now s = { s.emit (.timeout s.slot.tag s.attempt) with qstate := qBreakSet }) := by
  unfold timeoutCheck timerElapsed
  simp only [elapsed_iff]
  split
  · exact .inr ⟨by assumption, rfl⟩
  · exact .inl rfl

/-- A completed exchange ends with the queues as they were, or with one entry more behind the queue the command came
from (R166, R167). -/
theorem completeExchange_cases (now : U32) (nak : Bool) (s : State) :
    ∃ t, completeExchange now nak s = endExchange now t ∧
      (t = emitComplete nak s ∨
        ∃ (q : Queue) (e : Entry), q = s.slot.origin ∧ e.cmd = s.slot.cmd ∧ s.CommandLegal e.cmd ∧
          (s.queue q).length < (s.capacity q).toNat ∧ (∀ x ∈ s.queue q, x.cmd ≠ e.cmd) ∧
          t = (emitComplete nak s).setQueue q (s.queue q ++ [e])) := by
  unfold completeExchange
  split
  · refine ⟨_, rfl, ?_⟩
    rcases loopRequeue_cases (emitComplete nak s) with h | ⟨h1, h2, h3, h⟩
    · exact .inl h
    · refine .inr ⟨s.slot.origin, ⟨s.slot.cmd, true, s.slot.tag⟩, rfl, rfl, h1, ?_, ?_, ?_⟩
      · revert h2
        generalize ho : s.slot.origin = o
        rw [show (emitComplete nak s).slot.origin = o from ho]
        cases o <;> exact id
      · revert h3
        generalize ho : s.slot.origin = o
        rw [show (emitComplete nak s).slot.origin = o from ho]
        cases o <;> exact id
      · rw [h]
        generalize ho : s.slot.origin = o
        rw [show (emitComplete nak s).slot.origin = o from ho]
        cases o <;> rfl
  · exact ⟨_, rfl, .inl rfl⟩

/-- Every case of the SENDING action (R165). -/
theorem sendingAction_cases (now : U32) (s : State) :
    (s.rxDone = true ∧ ∃ r, decodeReply s = .ok r ∧ sendingAction now s = completeExchange now r.nak s) ∨
    (¬ (s.rxDone = true ∧ ∃ r, decodeReply s = .ok r) ∧
      (sendingAction now s = timeoutCheck now s ∨
        ∃ c, sendingAction now s = timeoutCheck now (s.emit (.frameError s.slot.tag c)))) := by
  unfold sendingAction
  split
  · rename_i h
    split
    · rename_i r hr
      exact .inl ⟨h, r, hr, rfl⟩
    · rename_i c hc
      refine .inr ⟨?_, .inr ⟨c, rfl⟩⟩
      rintro ⟨-, r, hr⟩
      rw [hc] at hr
      cases hr
  · rename_i h
    exact .inr ⟨fun h' => h h'.1, .inl rfl⟩

/-- Both cases of the BREAK_RESET action (R171). -/
theorem breakResetAction_cases (now : U32) (s : State) :
    breakResetAction now s = s ∨
    (s.timerDur.toNat ≤ (now - s.timerStart).toNat ∧
      breakResetAction now s = { s with lineBreak := false, timerStart := now, qstate := qRetry }) := by
  unfold breakResetAction timerElapsed
  simp only [elapsed_iff]
  split
  · exact .inr ⟨by assumption, rfl⟩
  · exact .inl rfl

theorem retriesExhausted_iff (s : State) :
    retriesExhausted (countAttempt s) = true ↔ s.cfgMaxRetries.toNat < (s.attempt + 1).toNat := by
  have h : (s.cfgMaxRetries.setWidth 16 : U16).toNat = s.cfgMaxRetries.toNat := by
    have := s.cfgMaxRetries.isLt
    simp
    omega
  unfold retriesExhausted countAttempt
  dsimp only
  rw [h, decide_eq_true_eq]

/-- Every case of the RETRY action (R172). -/
theorem retryAction_cases (now : U32) (s : State) :
    retryAction now s = s ∨
    (s.timerDur.toNat ≤ (now - s.timerStart).toNat ∧
      ((s.cfgMaxRetries.toNat < (s.attempt + 1).toNat ∧
          retryAction now s = failSession .retriesExhausted (countAttempt s)) ∨
        ((s.attempt + 1).toNat ≤ s.cfgMaxRetries.toNat ∧ retryAction now s = startAttempt now (countAttempt s)))) := by
  unfold retryAction timerElapsed
  simp only [elapsed_iff, retriesExhausted_iff]
  split
  · refine .inr ⟨by assumption, ?_⟩
    split
    · exact .inl ⟨by assumption, rfl⟩
    · exact .inr ⟨by omega, rfl⟩
  · exact .inl rfl

/-- Phase C is the action of the one state `QSTATE` names (R160). -/
theorem stateAction_cases (now : U32) {s : State} (h : s.qstate.toNat ≤ 4) :
    (s.qstate = 0 ∧ stateAction now s = idleAction now s) ∨
    (s.qstate = 1 ∧ stateAction now s = sendingAction now s) ∨
    (s.qstate = 2 ∧ stateAction now s = breakSetAction now s) ∨
    (s.qstate = 3 ∧ stateAction now s = breakResetAction now s) ∨
    (s.qstate = 4 ∧ stateAction now s = retryAction now s) := by
  have hq : s.qstate = 0 ∨ s.qstate = 1 ∨ s.qstate = 2 ∨ s.qstate = 3 ∨ s.qstate = 4 := by
    revert h
    generalize s.qstate = q
    revert q
    decide
  rcases hq with h | h | h | h | h
  · exact .inl ⟨h, stateAction_idle _ h⟩
  · exact .inr (.inl ⟨h, stateAction_sending _ h⟩)
  · exact .inr (.inr (.inl ⟨h, stateAction_breakSet _ h⟩))
  · exact .inr (.inr (.inr (.inl ⟨h, stateAction_breakReset _ h⟩)))
  · exact .inr (.inr (.inr (.inr ⟨h, stateAction_retry _ h⟩)))

theorem startAttempt_rxin (now : U32) (s : State) : (startAttempt now s).rxin = s.rxin := by
  rw [startAttempt_eq]
  split <;> rfl

/-- Phase C takes nothing from `RXIN`: only the framer does (R120). -/
theorem stateAction_rxin (now : U32) {s : State} (h : s.qstate.toNat ≤ 4) : (stateAction now s).rxin = s.rxin := by
  have timeout (u : State) : (timeoutCheck now u).rxin = u.rxin := by
    rcases timeoutCheck_cases now u with e | ⟨-, e⟩ <;> rw [e]
    rfl
  rcases stateAction_cases now h with ⟨-, e⟩ | ⟨-, e⟩ | ⟨-, e⟩ | ⟨-, e⟩ | ⟨-, e⟩ <;> rw [e]
  · rcases idleAction_cases now s with e | ⟨-, x, o, rest, -, e⟩ <;> rw [e]
    rw [startAttempt_rxin]
    cases o <;> rfl
  · rcases sendingAction_cases now s with ⟨-, r, -, e⟩ | ⟨-, e | ⟨c, e⟩⟩ <;> rw [e]
    · obtain ⟨u, e, rfl | ⟨q, x, -, -, -, -, -, rfl⟩⟩ := completeExchange_cases now r.nak s <;> rw [e]
      · rfl
      · cases q <;> rfl
    · exact timeout s
    · rw [timeout, emit_rxin]
  · rfl
  · rcases breakResetAction_cases now s with e | ⟨-, e⟩ <;> rw [e]
  · rcases retryAction_cases now s with e | ⟨-, ⟨-, e⟩ | ⟨-, e⟩⟩ <;> rw [e]
    · rfl
    · rw [startAttempt_rxin, countAttempt_rxin]

end Sys2Proof.Machine
end

