-- ==== Sys2Proof/Laws/Exec.lean ====
section
/-! SUPPORT. Each arm of `exec` as the shared operation it is one line over: a step of the block (`runOp`) for every
request, an arrival (`receive`) for every wire frame. -/

namespace Sys2Proof.Machine

open Host (Outcome)

theorem exec_enqn (c : Bytes) (loop : Bool) (tag : Option U16) (s : State) :
    exec (.enqn c loop tag) s = runOp (enqueueOp .norm c loop tag) s := rfl

theorem exec_enqp (c : Bytes) (loop : Bool) (tag : Option U16) (s : State) :
    exec (.enqp c loop tag) s = runOp (enqueueOp .prio c loop tag) s := rfl

theorem exec_clear (s : State) : exec .clear s = runOp (fun s => .ok (sessionClear .host s, .none)) s := rfl

theorem exec_isIdle (s : State) : exec .isIdle s = runOp (fun s => .ok (s, .idle (s.qstate = qIdle))) s := rfl

theorem exec_pending (s : State) : exec .pending s = runOp (fun s => .ok (s, .count (pendingCount s))) s := rfl

theorem exec_setTiming (a b c : U32) (s : State) :
    exec (.setTiming a b c) s =
      runOp (fun s => .ok ({ s with cfgSpacing := a, cfgTimeout := b, cfgBreak := c }, .none)) s := rfl

theorem exec_setMaxRetries (n : BitVec 8) (s : State) :
    exec (.setMaxRetries n) s = runOp (fun s => .ok ({ s with cfgMaxRetries := n }, .none)) s := rfl

theorem exec_setCapacity (q : Queue) (n : U16) (s : State) :
    exec (.setCapacity q n) s = runOp (fun s => (setCapacityCore q n s).map fun s' => (s', .none)) s := rfl

theorem exec_readReg_of_some {r : Byte} {s : State} {v : U32} (hl : s.CodesLegal)
    (h : readRegister s.begin r = some v) : exec (.readReg r) s = .next (s.answer (.ok (.reg v))) := by
  show execReadReg r s = _
  unfold execReadReg
  rw [runOp_of_legal hl]
  simp only [h]
  rfl

theorem exec_readReg_of_none {r : Byte} {s : State} (hl : s.CodesLegal) (h : readRegister s.begin r = none) :
    exec (.readReg r) s = .next (s.answer (.raise .badArg)) := by
  show execReadReg r s = _
  unfold execReadReg
  rw [runOp_of_legal hl]
  simp only [h]
  rfl

theorem exec_readFrame (d : Dir) (s : State) :
    exec (.readFrame d) s = runOp (fun s => .ok (s, .frame (frameRegister s d).1 (frameRegister s d).2)) s := rfl

theorem exec_encodeOp (d : Dir) (k : Byte) (x : Option Byte) (y : Bytes) (s : State) :
    exec (.encodeOp d k x y) s =
      runOp (fun s => (encodeCore (headerOf s.par d) (commandString k x y)).map fun f => (s, .encoded f)) s := rfl

theorem exec_decodeOp (b : Bytes) (k x : Option Byte) (m : Option U16) (s : State) :
    exec (.decodeOp b k x m) s = runOp (fun s => (decodeFrame b k x m).map fun r => (s, .record r)) s := rfl

theorem exec_poll (now : U32) (s : State) :
    exec (.poll now) s = runOp (fun s => .ok (stateAction now (framed s), .none)) s := rfl

theorem exec_reservedIllegalOp (op : Byte) (rest : Bytes) (s : State) :
    exec (.reservedIllegalOp op rest) s = runOp (fun _ => .error .illegalOp) s := rfl

/-- Every request is one atomic step of the block. -/
theorem exec_request (i : Instr) (s : State) (h : i.isRequest = true) : ∃ op, exec i s = runOp op s := by
  cases i with
  | enqn c l t => exact ⟨_, exec_enqn c l t s⟩
  | enqp c l t => exact ⟨_, exec_enqp c l t s⟩
  | clear => exact ⟨_, exec_clear s⟩
  | isIdle => exact ⟨_, exec_isIdle s⟩
  | pending => exact ⟨_, exec_pending s⟩
  | setTiming a b c => exact ⟨_, exec_setTiming a b c s⟩
  | setMaxRetries n => exact ⟨_, exec_setMaxRetries n s⟩
  | setCapacity q n => exact ⟨_, exec_setCapacity q n s⟩
  | readReg r =>
    exact ⟨fun s => match readRegister s r with
      | some v => .ok (s, .reg v)
      | none => .error .badArg, rfl⟩
  | readFrame d => exact ⟨_, exec_readFrame d s⟩
  | encodeOp d k x y => exact ⟨_, exec_encodeOp d k x y s⟩
  | decodeOp b k x m => exact ⟨_, exec_decodeOp b k x m s⟩
  | poll now => exact ⟨_, exec_poll now s⟩
  | reservedIllegalOp op rest => exact ⟨_, exec_reservedIllegalOp op rest s⟩
  | frameEchoTx => cases h
  | frameReplyRx => cases h
  | frameNak => cases h
  | frameAck => cases h
  | framePlain => cases h

/-- Every wire frame is an arrival of its own bytes. -/
theorem exec_frame (i : Instr) (s : State) (h : i.isRequest = false) :
    exec i s = .next (receive (encode s.par i) s) := by
  cases i with
  | frameEchoTx body => rfl
  | frameReplyRx body => rfl
  | frameNak d data => rfl
  | frameAck d k data => rfl
  | framePlain d k data => rfl
  | enqn => cases h
  | enqp => cases h
  | clear => cases h
  | isIdle => cases h
  | pending => cases h
  | setTiming => cases h
  | setMaxRetries => cases h
  | setCapacity => cases h
  | readReg => cases h
  | readFrame => cases h
  | encodeOp => cases h
  | decodeOp => cases h
  | poll => cases h
  | reservedIllegalOp => cases h

/-- A POLL is phase C on what phases A and B leave, and answers `OK` (R160). -/
theorem exec_poll_of_legal {s : State} (h : s.CodesLegal) (now : U32) :
    exec (.poll now) s = .next ((stateAction now (framed s).begin).setResult (.ok .none)) := by
  rw [exec_poll, runOp_of_legal h, framed_begin]
  rfl

/-- A request that goes on found no reserved code. -/
theorem legal_of_exec_next {i : Instr} {s t : State} (hi : i.isRequest = true) (h : exec i s = .next t) :
    s.CodesLegal := by
  obtain ⟨op, ho⟩ := exec_request i s hi
  rw [ho] at h
  exact (runOp_next.1 h).1

/-- A POLL that finds the bus held low leaves `RXIN` empty, also where it releases the bus (R125). -/
theorem poll_rxin_of_break {now : U32} {s t : State} (hb : s.lineBreak = true) (h : exec (.poll now) s = .next t) :
    t.rxin = [] := by
  have hl := legal_of_exec_next rfl h
  rw [exec_poll_of_legal hl, Outcome.next.injEq] at h
  have hf : framed s = { clearOneShot s with rxin := [] } := framerPhase_of_break hb
  rw [← h, setResult_rxin, hf]
  exact stateAction_rxin now hl.1

end Sys2Proof.Machine
end

