-- ==== Sys2Proof/Laws/Environment.lean ====
section
/-! SUPPORT. What one step does with each kind of input, and what one act of the environment does under the duties. -/

namespace Sys2Proof

theorem ofBe32_be32 (v : U32) :
    ofBe32 (v.extractLsb' 24 8) (v.extractLsb' 16 8) (v.extractLsb' 8 8) (v.extractLsb' 0 8) = v := by
  unfold ofBe32
  ext i hi
  simp only [BitVec.getElem_append, BitVec.getElem_extractLsb']
  split_ifs <;> rw [← BitVec.getLsbD_eq_getElem hi] <;> congr 1 <;> omega

namespace Machine

open Host (Outcome)

/-- The bytes of a POLL are read back as that POLL. -/
theorem decode_poll (p : Params) (now : U32) : decodeRequest (encode p (.poll now)) = .ok (.poll now) := by
  show Decoded.ok (Instr.poll (ofBe32 _ _ _ _)) = _
  rw [ofBe32_be32]

/-- A frame with the layout of R70 is the one built from its header and its command string. -/
theorem encodeFrame_of_wellFormed {s : Bytes} (h : wellFormedFrame s = true) :
    encodeFrame (byteAt s 0) (byteAt s 2 :: (s.take (s.length - 1)).drop 3) = s := by
  simp only [wellFormedFrame, Bool.and_eq_true, decide_eq_true_eq, beq_iff_eq] at h
  obtain ⟨⟨hn, hl⟩, hx⟩ := h
  match s, hn with
  | a :: l :: c :: x :: xs, _ =>
    obtain ⟨data, y, e⟩ : ∃ data y, x :: xs = data ++ [y] :=
      ⟨_, _, (List.dropLast_append_getLast (List.cons_ne_nil x xs)).symm⟩
    rw [e] at hl hx ⊢
    have hd : ((a :: l :: c :: (data ++ [y])).take ((a :: l :: c :: (data ++ [y])).length - 1)) = a :: l :: c :: data := by
      simp
    have hy : byteAt (a :: l :: c :: (data ++ [y])) ((a :: l :: c :: (data ++ [y])).length - 1) = y := by
      simp [byteAt]
    rw [hd, hy] at hx
    rw [hd]
    have hL : lengthByte (c :: data) = l := by
      apply BitVec.eq_of_toNat_eq
      have := l.isLt
      simp at hl ⊢
      simp [lengthByte]
      omega
    simp [encodeFrame, frameHead, hL, hx]

theorem headerOf_dirOfHeader {p : Params} {h : Byte} {d : Dir} (e : dirOfHeader p h = some d) : headerOf p d = h := by
  unfold dirOfHeader at e
  split_ifs at e with h1 h2 <;> cases e
  · exact h1.symm
  · exact h2.symm

theorem headerRow_spec {p : Params} {bs : Bytes} {i : Instr} (h : headerRow p bs = some i) :
    encode p i = bs ∧ i.isRequest = false := by
  unfold headerRow at h
  split at h
  · cases h
  · split_ifs at h
    split at h <;> cases h <;> rename_i hd <;> rw [← headerOf_dirOfHeader hd] <;> exact ⟨rfl, rfl⟩

/-- Bit 7 and the bits below it make the command byte of an ACK frame (R78). -/
theorem ackCommand_of_isAck {c : Byte} (h : isAckByte c = true) : ackCommand (c.setWidth 7) = c := by
  revert c
  decide

theorem setWidth_of_notAck {c : Byte} (h : isAckByte c = false) : (c.setWidth 7).setWidth 8 = c := by
  revert c
  decide

theorem commandRow_spec {p : Params} {bs : Bytes} {i : Instr} (h : commandRow p bs = some i) :
    encode p i = bs ∧ i.isRequest = false := by
  unfold commandRow at h
  split at h
  case isFalse => cases h
  case isTrue hw =>
    have hf := encodeFrame_of_wellFormed hw
    obtain ⟨d, hd, rfl⟩ := Option.map_eq_some_iff.1 h
    rw [← headerOf_dirOfHeader hd] at hf
    split_ifs with hn ha
    · rw [show byteAt bs 2 = nakCmd by simpa [isNakByte] using hn] at hf
      exact ⟨hf, rfl⟩
    · refine ⟨?_, rfl⟩
      show encodeFrame _ (ackCommand _ :: _) = bs
      rw [ackCommand_of_isAck ha]
      exact hf
    · refine ⟨?_, rfl⟩
      show encodeFrame _ ((BitVec.setWidth 7 (byteAt bs 2)).setWidth 8 :: _) = bs
      rw [setWidth_of_notAck (by simpa using ha)]
      exact hf

/-- The row read from bytes on the wire is a row of exactly those bytes. -/
theorem decodeWire_spec {p : Params} {bs : Bytes} {i : Instr} (h : decodeWire p bs = some i) :
    encode p i = bs ∧ i.isRequest = false := by
  unfold decodeWire at h
  split at h
  · rename_i body hr
    cases hc : commandRow p bs with
    | none =>
      rw [hc] at h
      cases h
      exact headerRow_spec hr
    | some j =>
      rw [hc] at h
      cases h
      exact commandRow_spec hc
  · exact headerRow_spec h

/-- A request that decodes runs its instruction (R75). -/
theorem step_request {s : State} {bs : Bytes} {rest : List Input} {i : Instr} (h : s.inbox = .request bs :: rest)
    (hd : decodeRequest bs = .ok i) : step s = exec i { s with inbox := rest } := by
  simp [step, fetch, h, hd]

/-- Bytes on the wire are received as they stand (R120), whether they are a frame or not. -/
theorem step_wire {s : State} {bs : Bytes} {rest : List Input} (h : s.inbox = .wire bs :: rest) :
    step s = .next (receive bs { s with inbox := rest }) := by
  simp only [step, fetch, h]
  cases hd : decodeWire s.par bs with
  | none => rfl
  | some i =>
    obtain ⟨he, hi⟩ := decodeWire_spec hd
    show exec i _ = _
    rw [exec_frame i _ hi]
    show Outcome.next (receive (encode s.par i) _) = _
    rw [he]

/-- A POLL under the duties (R243 items 1 and 4). -/
theorem envStep_poll {time : Nat} {canSend : Bool} {e e' : Environment} {s t : State} :
    envStep (.poll time canSend) e s = some (e', t) ↔
      e.timeAdvances time = true ∧ exec (.poll (nowAt time)) s = .next t ∧
        (t.out.sent = [] ∨ s.nextTxOk = canSend) ∧
        e' = { e with
               lastPoll := some time
               echoOwed := if canSend then e.echoOwed ++ t.out.sent.flatten else e.echoOwed } := by
  unfold envStep
  rw [step_request rfl (decode_poll s.par (nowAt time)),
    show e.allows s (.poll time canSend) = e.timeAdvances time from rfl]
  change (if _ then (match exec (.poll (nowAt time)) s with | .next t => _ | .fault _ => _ | .refused _ => _) else _) = _ ↔ _
  cases e.timeAdvances time with
  | false => simp
  | true =>
    cases exec (.poll (nowAt time)) s with
    | fault _ => simp
    | refused _ => simp
    | next u =>
      have ha : (EnvEvent.poll time canSend).answeredTruly s u = true ↔ u.out.sent = [] ∨ s.nextTxOk = canSend := by
        simp only [EnvEvent.answeredTruly, drawTxOk_eq, Bool.or_eq_true, List.isEmpty_iff, decide_eq_true_eq]
      simp only [if_true, Outcome.next.injEq, true_and]
      split
      · rename_i h
        rw [Option.some.injEq, Prod.mk.injEq]
        constructor
        · rintro ⟨rfl, rfl⟩
          exact ⟨rfl, ha.1 h, rfl⟩
        · rintro ⟨rfl, _, rfl⟩
          exact ⟨rfl, rfl⟩
      · rename_i h
        constructor
        · intro hn
          cases hn
        · rintro ⟨rfl, hs, _⟩
          exact absurd (ha.2 hs) h

/-- An arrival of the next bytes of the echo, with no device frame unfinished (R243 items 2 and 3). -/
theorem envStep_echo {bytes : Bytes} {e : Environment} {s : State} (hb : s.lineBreak = false)
    (hr : e.replyOpen = false) (h : bytes <+: e.echoOwed) :
    envStep (.echo bytes) e s =
      some ({ e with echoOwed := e.echoOwed.drop bytes.length }, receive bytes s) := by
  unfold envStep
  rw [if_pos (by simpa [Environment.allows, hb, hr] using h), step_wire rfl]
  rfl

/-- An arrival from the device, with no echo outstanding or within a frame it had begun (R243 item 3). -/
theorem envStep_reply {e : Environment} (bytes : Bytes) (ends : Bool) {s : State} (hb : s.lineBreak = false)
    (h : e.echoOwed = [] ∨ e.replyOpen = true) :
    envStep (.reply bytes ends) e s = some ({ e with replyOpen := !ends }, receive bytes s) := by
  unfold envStep
  rw [if_pos (by simpa [Environment.allows, hb] using h), step_wire rfl]
  rfl

/-- No echo splits a device frame, and no device frame begins before the echo is whole (R243 item 3, C4). -/
theorem envStep_one_after_the_other (bytes : Bytes) (ends : Bool) (e : Environment) (s : State) :
    (e.replyOpen = true → envStep (.echo bytes) e s = none) ∧
    (e.echoOwed ≠ [] → e.replyOpen = false → envStep (.reply bytes ends) e s = none) := by
  constructor
  · intro h
    simp [envStep, Environment.allows, h]
  · intro h hr
    simp [envStep, Environment.allows, h, hr]

/-- While the bus is held low neither echo nor device bytes arrive (R243 item 5). -/
theorem envStep_traffic_of_break (bytes : Bytes) (ends : Bool) (e : Environment) {s : State} (hb : s.lineBreak = true) :
    envStep (.echo bytes) e s = none ∧ envStep (.reply bytes ends) e s = none := by
  simp [envStep, Environment.allows, hb]

/-- Noise may arrive at any time; what arrives in a hold is marked as the hold's, to be discarded (R243 item 5). -/
theorem envStep_noise (bytes : Bytes) (e : Environment) (s : State) :
    envStep (.noise bytes) e s = some (e, receive bytes s) := by
  unfold envStep
  rw [if_pos (show e.allows s (.noise bytes) = true from rfl), step_wire rfl]
  rfl

end Machine

end Sys2Proof
end

