-- ==== Sys2Proof/Laws/PerInstr.lean ====
section
/-! SUPPORT. Statements about every instruction as syntax, one lemma per constructor. Family `FirstByte`: the first
byte of an instruction's bytes is the one spec/opcode_table.json gives its row: the opcode of a request (R74, R77),
the header of a wire frame (R78). -/

namespace Sys2Proof.Laws.FirstByte

/-- The table's byte of the row. -/
def firstByte (p : Params) : Instr → Byte
  | .enqn _ _ _ => 0x01
  | .enqp _ _ _ => 0x02
  | .clear => 0x03
  | .isIdle => 0x04
  | .pending => 0x05
  | .setTiming _ _ _ => 0x06
  | .setMaxRetries _ => 0x07
  | .setCapacity _ _ => 0x08
  | .readReg _ => 0x09
  | .readFrame _ => 0x0A
  | .encodeOp _ _ _ _ => 0x0B
  | .decodeOp _ _ _ _ => 0x0C
  | .poll _ => 0x0D
  | .reservedIllegalOp op _ => op
  | .frameEchoTx _ => p.txHeader
  | .frameReplyRx _ => p.rxHeader
  | .frameNak dir _ => headerOf p dir
  | .frameAck dir _ _ => headerOf p dir
  | .framePlain dir _ _ => headerOf p dir

def Statement (i : Instr) : Prop := ∀ p : Params, (encode p i).head? = some (firstByte p i)

theorem enqn (c : Bytes) (loop : Bool) (tag : Option U16) : Statement (.enqn c loop tag) := fun _ => rfl
theorem enqp (c : Bytes) (loop : Bool) (tag : Option U16) : Statement (.enqp c loop tag) := fun _ => rfl
theorem clear : Statement .clear := fun _ => rfl
theorem isIdle : Statement .isIdle := fun _ => rfl
theorem pending : Statement .pending := fun _ => rfl
theorem setTiming (a b c : U32) : Statement (.setTiming a b c) := fun _ => rfl
theorem setMaxRetries (n : BitVec 8) : Statement (.setMaxRetries n) := fun _ => rfl
theorem setCapacity (q : Queue) (n : U16) : Statement (.setCapacity q n) := fun _ => by cases q <;> rfl
theorem readReg (r : Byte) : Statement (.readReg r) := fun _ => rfl
theorem readFrame (d : Dir) : Statement (.readFrame d) := fun _ => by cases d <;> rfl
theorem encodeOp (d : Dir) (k : Byte) (x : Option Byte) (y : Bytes) : Statement (.encodeOp d k x y) := fun _ => rfl
theorem decodeOp (b : Bytes) (k x : Option Byte) (m : Option U16) : Statement (.decodeOp b k x m) := fun _ => rfl
theorem poll (now : U32) : Statement (.poll now) := fun _ => rfl
theorem reservedIllegalOp (op : Byte) (rest : Bytes) : Statement (.reservedIllegalOp op rest) := fun _ => rfl
theorem frameEchoTx (body : Bytes) : Statement (.frameEchoTx body) := fun _ => rfl
theorem frameReplyRx (body : Bytes) : Statement (.frameReplyRx body) := fun _ => rfl
theorem frameNak (d : Dir) (data : Bytes) : Statement (.frameNak d data) := fun _ => rfl
theorem frameAck (d : Dir) (cmd : BitVec 7) (data : Bytes) : Statement (.frameAck d cmd data) := fun _ => rfl
theorem framePlain (d : Dir) (cmd : BitVec 7) (data : Bytes) : Statement (.framePlain d cmd data) := fun _ => rfl

end Sys2Proof.Laws.FirstByte
end

