-- ==== Sys2Proof/Tests/Slice0.lean ====
section
/-! SUPPORT. The model's own tests: expected values from spec/ (the vectors of 95_test_vectors.md, written out from
the rules where no vector is named), and for every obligation with hypotheses a concrete case that meets them. -/

namespace Sys2Proof.Tests

set_option Elab.async false

open Sys2Proof Sys2Proof.Machine
open Host (Outcome)

/-! ## Helpers -/

/-- What a step that goes on leaves. -/
def got {α : Type} (f : State → α) : Outcome State Fault Refusal → Option α
  | .next t => some (f t)
  | .fault _ => none
  | .refused _ => none

/-- The result of a step, as the bytes of R75 and R76. -/
def resultBytes (o : Outcome State Fault Refusal) : Option Bytes := (got (fun t => t.out.result.map Result.bytes) o).join

def events : Outcome State Fault Refusal → Option (List Event) := got fun t => t.out.events

/-- The engine of the vectors after `SET_TIMING 0 100 50` and `SET_MAX_RETRIES 3`. -/
def base : State := { State.reset with cfgTimeout := 100, cfgBreak := 50, cfgMaxRetries := 3 }

/-- `44` in flight, transmitted at time 0 (V1 step 4). -/
def sending : State :=
  { base with
    qstate := 1, attempt := 1, timerStart := 0, timerDur := 100
    slot := { valid := true, cmd := [0x44], loop := false, tag := some 3, origin := .norm, txFrame := [0xF4, 0x02, 0x44, 0xB2] } }

/-- The same command after the timeout, the bus held low from time 400 (V7 step 6). -/
def holding : State := { sending with qstate := 3, lineBreak := true, timerStart := 400, timerDur := 30 }

/-- The same command in RETRY, released at time 430 (V7 step 8). -/
def retrying : State := { sending with qstate := 4, timerStart := 430, timerDur := 30, txAnswers := [true] }

/-- A POLL with bytes in `RXIN`. -/
def pollWith (s : State) (now : U32) (rx : Bytes) : Outcome State Fault Refusal := exec (.poll now) { s with rxin := traffic rx }

/-! ## WellFormed: an ill-formed term for each check -/

theorem test_wf_enqn_count (c : Bytes) (h : c.length = 256) : WellFormed (.enqn c false none) = false := by
  simp [WellFormed, h]
theorem test_wf_enqp_count (c : Bytes) (h : c.length = 256) : WellFormed (.enqp c false none) = false := by
  simp [WellFormed, h]
theorem test_wf_encode_count (c : Bytes) (h : c.length = 256) : WellFormed (.encodeOp .tx 0x44 none c) = false := by
  simp [WellFormed, h]
theorem test_wf_decode_count (c : Bytes) (h : c.length = 65536) : WellFormed (.decodeOp c none none none) = false := by
  simp [WellFormed, h]
theorem test_wf_assigned_opcode : WellFormed (.reservedIllegalOp 0x0D []) = false := by decide
theorem test_wf_echo_no_length : WellFormed (.frameEchoTx []) = false := by decide
theorem test_wf_echo_short : WellFormed (.frameEchoTx [0x02, 0x44]) = false := by decide
theorem test_wf_reply_long : WellFormed (.frameReplyRx [0x01, 0x44, 0x09]) = false := by decide
theorem test_wf_nak_length (c : Bytes) (h : c.length = 254) : WellFormed (.frameNak .rx c) = false := by
  simp [WellFormed, fitsFrame, h]
theorem test_wf_ack_length (c : Bytes) (h : c.length = 254) : WellFormed (.frameAck .rx 0x44 c) = false := by
  simp [WellFormed, fitsFrame, h]
theorem test_wf_plain_nak : WellFormed (.framePlain .rx 0x7F []) = false := by decide
theorem test_wf_plain_length (c : Bytes) (h : c.length = 254) : WellFormed (.framePlain .tx 0x44 c) = false := by
  simp [WellFormed, fitsFrame, h]

/-! ## Decode: a word for every constructor, written out from R70, R74, R75 and R77 -/

theorem test_decode_enqn : decodeRequest [0x01, 0x02, 0x00, 0x07, 0x02, 0x50, 0x05] = .ok (.enqn [0x50, 0x05] false (some 7)) := by decide
theorem test_decode_enqp : decodeRequest [0x02, 0x01, 0x12, 0x34, 0x01, 0x38] = .ok (.enqp [0x38] true none) := by decide
theorem test_decode_clear : decodeRequest [0x03] = .ok .clear := by decide
theorem test_decode_isIdle : decodeRequest [0x04] = .ok .isIdle := by decide
theorem test_decode_pending : decodeRequest [0x05] = .ok .pending := by decide
theorem test_decode_setTiming :
    decodeRequest [0x06, 0x01, 0x02, 0x03, 0x04, 0, 0, 0x03, 0xE8, 0, 0, 0, 0x1E] =
      .ok (.setTiming 0x01020304 1000 30) := by decide
theorem test_decode_setMaxRetries : decodeRequest [0x07, 0x03] = .ok (.setMaxRetries 3) := by decide
theorem test_decode_setCapacity : decodeRequest [0x08, 0x00, 0x01, 0x02] = .ok (.setCapacity .prio 0x0102) := by decide
theorem test_decode_readReg : decodeRequest [0x09, 0x15] = .ok (.readReg 0x15) := by decide
theorem test_decode_readFrame : decodeRequest [0x0A, 0x01] = .ok (.readFrame .tx) := by decide
theorem test_decode_encodeOp : decodeRequest [0x0B, 0x02, 0xC4, 0x00, 0x00] = .ok (.encodeOp .rx 0xC4 none []) := by decide
theorem test_decode_decodeOp :
    decodeRequest [0x0C, 0x04, 0, 0, 0x00, 0x07, 0x00, 0x06, 0x4F, 0x04, 0xD0, 0x05, 0x32, 0xAC] =
      .ok (.decodeOp [0x4F, 0x04, 0xD0, 0x05, 0x32, 0xAC] none none (some 7)) := by decide
theorem test_decode_poll : decodeRequest [0x0D, 0xFF, 0xFF, 0xFF, 0xC0] = .ok (.poll 4294967232) := by decide
theorem test_decode_reserved : decodeRequest [0xFF, 0x01] = .ok (.reservedIllegalOp 0xFF [0x01]) := by decide
theorem test_decode_echo : decodeWire Config.params [0xF4, 0x02, 0x44, 0xB2] = some (.frameEchoTx [0x02, 0x44, 0xB2]) := by decide
theorem test_decode_reply : decodeWire Config.params [0x4F, 0x02, 0xC4, 0x88] = some (.frameReplyRx [0x02, 0xC4, 0x88]) := by decide
theorem test_decode_nak : decodeWire Config.params [0x4F, 0x04, 0x7F, 0x50, 0x33, 0x57] = some (.frameNak .rx [0x50, 0x33]) := by decide
theorem test_decode_ack : decodeWire Config.params [0x4F, 0x04, 0xD0, 0x05, 0x32, 0xAC] = some (.frameAck .rx 0x50 [0x05, 0x32]) := by decide
theorem test_decode_plain : decodeWire Config.params [0x4F, 0x02, 0x44, 0x09] = some (.framePlain .rx 0x44 []) := by decide
theorem test_decode_noise : decodeWire Config.params [0x00, 0x02, 0x44, 0x46] = none := by decide

/-- The numbering of spec/opcode_table.json: the first byte lowest. `09 15` is READ_REG 0x15. -/
theorem test_tableWord_readReg : decodeTableWord 16 0x1509 = some (.readReg 0x15) := by decide
theorem test_tableWord_poll : decodeTableWord 8 0x0D = some (.poll 0) := by decide
theorem test_fetchWord_runs : got State.cfgMaxRetries (step (State.reset.withFetchWord 16 0x0307)) = some 3 := by decide

/-! ## Refused requests (R75, R77) -/

/-- DV35: `n` given as 5 with 4 bytes. -/
theorem test_request_short :
    resultBytes (step { base with inbox := [.request [0x0C, 0x01, 0x44, 0, 0, 0, 0, 0x05, 0x4F, 0x02, 0xC4, 0x89]] }) =
      some [0x03] := by decide

/-- X38: a reserved flag bit. -/
theorem test_request_flag : resultBytes (step { base with inbox := [.request [0x0B, 0x04, 0x44, 0, 0]] }) = some [0x03] := by decide

/-! ## Host operations -/

/-- V9: `ENQP tag=2 38` on an empty priority queue. -/
theorem test_enqp_pushes : got State.pq (exec (.enqp [0x38] false (some 2)) base) = some [⟨[0x38], false, some 2⟩] := by decide

/-- E4: the same command again is a duplicate. -/
theorem test_enqn_duplicate :
    resultBytes (exec (.enqn [0x50, 0x05] true none) { base with nq := [⟨[0x50, 0x05], false, some 7⟩] }) = some [0x02] := by decide

/-- A full queue is reported before a duplicate (R142). -/
theorem test_enqn_full_first :
    resultBytes (exec (.enqn [0x44] false none) { base with cfgCapN := 1, nq := [⟨[0x44], false, none⟩] }) = some [0x01] := by decide

/-- CLEAR while the bus is held low releases it (R207). -/
theorem test_clear_releases : got (fun t => (t.lineBreak, t.qstate, t.out.events)) (exec .clear holding) = some (false, 0, [.cleared .host]) := by decide

theorem test_isIdle_sending : resultBytes (exec .isIdle sending) = some [0x00, 0x00] := by decide

/-- PENDING does not count the command in flight (V3 step 8 counts one queued entry). -/
theorem test_pending_counts :
    resultBytes (exec .pending { sending with nq := [⟨[0x44], false, some 4⟩] }) = some [0x00, 0x00, 0x01] := by decide

/-- V8: the running interval is not changed. -/
theorem test_setTiming_keeps_timer : got (fun t => (t.timerDur, t.cfgTimeout)) (exec (.setTiming 0 1000 50) sending) = some (100, 1000) := by decide

theorem test_setMaxRetries : got State.cfgMaxRetries (exec (.setMaxRetries 255) base) = some 255 := by decide

theorem test_setCapacity_above_depth : resultBytes (exec (.setCapacity .norm 5) base) = some [0x03] := by decide

theorem test_setCapacity_zero : got (fun t => (t.cfgCapP, t.cfgCapN)) (exec (.setCapacity .prio 0) base) = some (0, 4) := by decide

/-- Q21: `READ_REG 15` after a reply completed. -/
theorem test_readReg_flags : resultBytes (exec (.readReg 0x15) { base with rxDone := true }) = some [0, 0, 0, 0, 1] := by decide

theorem test_readReg_reserved : resultBytes (exec (.readReg 0x16) base) = some [0x03] := by decide

theorem test_readFrame_tx :
    resultBytes (exec (.readFrame .tx) { base with txDone := true, txFrame := [0xF4, 0x02, 0x44, 0xB2] }) =
      some [0x00, 0x01, 0x00, 0x04, 0xF4, 0x02, 0x44, 0xB2] := by decide

/-! ## Codec -/

/-- X30. -/
theorem test_encode_x30 : resultBytes (exec (.encodeOp .tx 0x50 (some 0x05) []) base) = some [0, 0, 5, 0xF4, 0x03, 0x50, 0x05, 0xA2] := by decide

/-- X37: 255 bytes of command string. -/
theorem test_encode_x37 (c : Bytes) (h : c.length = 253) : encodeCore 0xF4 (commandString 0x01 (some 0) c) = .error .badArg := by
  simp [encodeCore, commandString, h]

/-- DV31: a NAK passes whatever is expected. -/
theorem test_decode_dv31 :
    resultBytes (exec (.decodeOp [0x4F, 0x04, 0x7F, 0x50, 0x33, 0x57] (some 0x44) (some 0x99) none) base) = some [0, 2, 0x7F] := by decide

/-- DV27: the minimum length comes before the NAK. -/
theorem test_decode_dv27 :
    resultBytes (exec (.decodeOp [0x4F, 0x02, 0x7F, 0x32] (some 0x44) (some 0) (some 9)) base) = some [0x11] := by decide

/-! ## Framer and sequencer -/

/-- F2: the echo completes, the reply stays in `RXIN`. -/
theorem test_poll_echo :
    got (fun t => (t.txDone, t.txFrame, t.rxDone, t.rxin)) (pollWith base 1 [0xF4, 0x02, 0x44, 0xB2, 0x4F, 0x02, 0xC4, 0x89]) =
      some (true, [0xF4, 0x02, 0x44, 0xB2], false, traffic [0x4F, 0x02, 0xC4, 0x89]) := by decide

/-- F5: `L = 0` is a frame of two bytes. -/
theorem test_poll_shortest : got (fun t => (t.rxFrame, t.rxin)) (pollWith base 1 [0x4F, 0x00, 0x4F]) = some ([0x4F, 0x00], traffic [0x4F]) := by decide

/-- V9: the priority entry goes first. -/
theorem test_poll_priority :
    got (fun t => (t.slot.cmd, t.slot.origin, t.out.events, t.out.sent))
      (exec (.poll 0) { base with pq := [⟨[0x38], false, some 2⟩], nq := [⟨[0x10], false, some 1⟩], txAnswers := [true] }) =
      some ([0x38], .prio, [.transmitted (some 2) 1], [[0xF4, 0x02, 0x38, 0xCE]]) := by decide

/-- V1 step 6: a rejected reply and the timeout in one POLL. -/
theorem test_poll_rejected_and_timeout :
    got (fun t => (t.qstate, t.out.events)) (pollWith sending 100 [0x4F, 0x02, 0xC4, 0x88]) =
      some (2, [.frameError (some 3) .decChecksum, .timeout (some 3) 1]) := by decide

/-- V4 step 6: a NAK completes a loop command without putting it back. -/
theorem test_poll_nak_loop :
    got (fun t => (t.qstate, t.nq, t.out.events))
      (pollWith { sending with slot := { sending.slot with loop := true } } 11 [0x4F, 0x04, 0x7F, 0x44, 0x33, 0x43]) =
      some (0, [], [.complete (some 3) true 1 [0xF4, 0x02, 0x44, 0xB2] [0x4F, 0x04, 0x7F, 0x44, 0x33, 0x43]]) := by decide

/-- V2 steps 5 and 6: the interval across the wrap of `now`. -/
theorem test_elapsed_wraps : elapsed 0xFFFFFFC0 100 0x23 = false ∧ elapsed 0xFFFFFFC0 100 0x24 = true := by decide

/-- V7 steps 7 and 8. -/
theorem test_poll_release :
    got State.qstate (exec (.poll 429) holding) = some 3 ∧ got State.lineBreak (exec (.poll 430) holding) = some false := by decide

/-- V7 step 10: the same frame again. -/
theorem test_poll_retransmits :
    got (fun t => (t.attempt, t.out.events, t.out.sent)) (exec (.poll 460) retrying) =
      some (2, [.transmitted (some 3) 2], [[0xF4, 0x02, 0x44, 0xB2]]) := by decide

/-- R173: the budget is used up. -/
theorem test_poll_exhausted :
    got (fun t => (t.qstate, t.out.events, t.out.sent)) (exec (.poll 460) { retrying with attempt := 3 }) =
      some (0, [.failed (some 3) .retriesExhausted 4, .cleared .retriesExhausted], []) := by decide

/-! ## Arrivals on the wire (R120) -/

theorem test_reserved_op : resultBytes (exec (.reservedIllegalOp 0x0E []) base) = some [0x04] := by decide
theorem test_arrives_echo : got State.rxin (exec (.frameEchoTx [0x02, 0x44, 0xB2]) { base with rxin := traffic [0x00] }) = some (traffic [0x00, 0xF4, 0x02, 0x44, 0xB2]) := by decide
theorem test_arrives_reply : got State.rxin (exec (.frameReplyRx [0x00]) base) = some (traffic [0x4F, 0x00]) := by decide
theorem test_arrives_in_hold : got State.rxin (exec (.frameReplyRx [0x00]) holding) = some (received true [0x4F, 0x00]) := by decide
theorem test_arrives_nak : got State.rxin (exec (.frameNak .rx [0x50, 0x33]) base) = some (traffic [0x4F, 0x04, 0x7F, 0x50, 0x33, 0x57]) := by decide
theorem test_arrives_ack : got State.rxin (exec (.frameAck .rx 0x44 []) base) = some (traffic [0x4F, 0x02, 0xC4, 0x89]) := by decide
theorem test_arrives_plain : got State.rxin (exec (.framePlain .tx 0x50 [0x05]) base) = some (traffic [0xF4, 0x03, 0x50, 0x05, 0xA2]) := by decide

/-! ## Event bytes (L2.6) and the text syntax (R81) -/

theorem test_event_failed : (Event.failed (some 1) .retriesExhausted 3).bytes = [0x04, 0x01, 0x00, 0x01, 0x02, 0x00, 0x03] := by decide
theorem test_event_complete :
    (Event.complete (some 7) false 1 [0xF4, 0x02] [0x4F]).bytes =
      [0x02, 0x01, 0x00, 0x07, 0x00, 0x00, 0x01, 0x00, 0x02, 0xF4, 0x02, 0x00, 0x01, 0x4F] := by decide

theorem test_text_enqn : parseLine "ENQN tag=7 50 05".toList = some ⟨.enqn [0x50, 0x05] false (some 7), [], true⟩ := by decide
theorem test_text_poll :
    parseLine "POLL 1010 rx=F4 03 txfail".toList = some ⟨.poll 1010, [0xF4, 0x03], false⟩ := by decide
theorem test_text_decode :
    parseLine "DECODE cmd=44 idx=99 4F 04".toList = some ⟨.decodeOp [0x4F, 0x04] (some 0x44) (some 0x99) none, [], true⟩ := by decide
theorem test_text_refused : parseLine "ENQN tag=65536 44".toList = none := by decide

/-! ## Every obligation with hypotheses: a concrete case that meets them all, for each clause at a boundary -/

/-- The reply to `44` (X15). -/
abbrev reply44 : Bytes := [0x4F, 0x02, 0xC4, 0x89]

/-- `sending` with the reply in `RXIN`. -/
def replied : State := { sending with rxin := traffic reply44 }

/-- `base` with something to run next. -/
def pending (i : Input) : State := { base with inbox := [i] }

theorem test_hyps_RequestRoundTrip :
    WellFormed (.setCapacity .norm 65535) = true ∧ (Instr.setCapacity .norm 65535).isRequest = true ∧
    WellFormed (.reservedIllegalOp 0x0E [1]) = true ∧ (Instr.reservedIllegalOp 0x0E [1]).isRequest = true := by decide

theorem test_hyps_DecodedRequestWellFormed : decodeRequest [0x0D, 0xFF, 0xFF, 0xFF, 0xFF] = .ok (.poll 4294967295) := by decide

theorem test_hyps_WireFrameRoundTrip :
    Config.params.Ok ∧ WellFormed (.frameEchoTx [0]) = true ∧ WellFormed (.frameReplyRx [0]) = true ∧
    WellFormed (.frameNak .rx []) = true ∧ WellFormed (.frameAck .rx 0x7F []) = true ∧
    WellFormed (.framePlain .tx 0x7E []) = true := by decide

/-- One frame for each clause, the shortest there is; the command bytes are the ones next to 0x7F. -/
theorem test_hyps_FrameClassTests :
    Config.params.Ok ∧ (2 : Byte).toNat = ([] : Bytes).length + 2 ∧
    xorFold [0xF4, 2, 0x7F] = 0x89 ∧ Config.params.txHeader = 0xF4 ∧
    xorFold [0x4F, 2, 0x7F] = 0x32 ∧ Config.params.rxHeader = 0x4F ∧ headerOf Config.params .rx = 0x4F ∧
    xorFold [0x4F, 2, 0x80] = 0xCD ∧ (0x80 : Byte).getLsbD 7 = true ∧
    xorFold [0x4F, 2, 0x7E] = 0x33 ∧ (0x7E : Byte).getLsbD 7 = false ∧ (0x7E : Byte) ≠ 0x7F := by decide

theorem test_hyps_StepRunsDecodedInstruction :
    (pending (.request [0x04])).inbox = .request [0x04] :: [] ∧ decodeRequest [0x04] = .ok .isIdle ∧
    (pending (.wire reply44)).inbox = .wire reply44 :: [] ∧
    decodeWire (pending (.wire reply44)).par reply44 = some (.frameAck .rx 0x44 []) ∧
    (pending (.wire [0])).inbox = .wire [0] :: [] ∧ decodeWire (pending (.wire [0])).par [0] = none ∧
    (pending (.wire [0])).lineBreak = false ∧
    ({ holding with inbox := [.wire [0]] } : State).inbox = .wire [0] :: [] ∧ decodeWire holding.par [0] = none ∧
    holding.lineBreak = true ∧ base.inbox = [] := by decide

theorem test_hyps_ReservedEncodingsRefused :
    base.CodesLegal ∧ (∀ bs, (pending (.request bs)).inbox = .request bs :: []) ∧
    unassignedOpcode 0x00 = true ∧ unassignedOpcode 0x0E = true ∧ unassignedOpcode 0xFF = true ∧
    unassignedOpcode 0x0D = false ∧ [0x0D, 0, 0, 0].length ≠ requestLength [0x0D, 0, 0, 0] ∧
    4 ≤ [0x04, 0, 0, 0].length ∧ byteAt [0x04, 0, 0, 0] 0 &&& 0xFC ≠ 0 ∧
    7 ≤ [0x08, 0, 0, 0, 0, 0, 0].length ∧ byteAt [0x08, 0, 0, 0, 0, 0, 0] 0 &&& 0xF8 ≠ 0 ∧
    1 ≤ [(0x02 : Byte)].length ∧ 2 ≤ (byteAt [0x02] 0).toNat ∧ 0x16 ≤ (0x16 : Byte).toNat :=
  ⟨by decide, fun _ => rfl, by decide, by decide, by decide, by decide, by decide, by decide, by decide, by decide,
    by decide, by decide, by decide, by decide⟩

theorem test_hyps_ReservedCodeStops :
    Instr.pending.isRequest = true ∧ 4 < ({ base with qstate := 5 } : State).qstate.toNat ∧
    ({ base with frPhase := 3 } : State).qstate.toNat ≤ 4 ∧ 2 < ({ base with frPhase := 3 } : State).frPhase.toNat := by decide

theorem test_hyps_LegalStateGoesOn : retrying.CodesLegal ∧ ({ base with frPhase := 2 } : State).CodesLegal := by decide

theorem test_hyps_EventBytesDetermineEvent :
    ∀ e ∈ [Event.complete none true 256 [0xF4] reply44, Event.cleared .host], e.FramesFit := by
  simp [Event.FramesFit, reply44]

/-- A state for each branch of the checks. -/
theorem test_hyps_EnqueueChecksInOrder :
    base.CodesLegal ∧ ([] : Bytes).length = 0 ∧ ({ base with cfgCapN := 0 } : State).cfgCapN.toNat ≤ base.nq.length ∧
    (∃ e ∈ ({ base with pq := [⟨[0x44], true, none⟩] } : State).pq, e.cmd = [0x44]) ∧
    base.nq.length < base.cfgCapN.toNat := by decide

theorem test_hyps_SecondEnqueueLeavesQueue :
    base.CodesLegal ∧
    (∃ t u, exec (.enqn [0x44] true none) base = .next t ∧ exec (.enqn [0x44] false (some 1)) t = .next u) ∧
    (∃ t u, exec (.enqp [0x44] true none) base = .next t ∧ exec (.enqp [0x44] false (some 1)) t = .next u) :=
  ⟨by decide, ⟨_, _, rfl, rfl⟩, ⟨_, _, rfl, rfl⟩⟩

theorem test_hyps_ClearEmptiesSession : holding.CodesLegal := by decide

theorem test_hyps_StatusOperations : sending.CodesLegal ∧ base.CodesLegal := by decide

theorem test_hyps_SetCapacityWritesOneRegister :
    base.CodesLegal ∧ (4 : U16).toNat = base.par.qdepthP ∧ (5 : U16).toNat > base.par.qdepthN := by decide

/-- The last register of the table, and the first reserved number after it. -/
theorem test_hyps_ReadRegisterTable :
    base.CodesLegal ∧ (0x15 : Byte).toNat + 1 = 0x16 ∧ 0x16 ≤ (0x16 : Byte).toNat := by decide

theorem test_hyps_ReadFrameReturnsRegister : sending.CodesLegal := by decide

theorem test_hyps_TimingConfiguration : sending.CodesLegal := by decide

theorem test_hyps_HostOperationsKeepCommands :
    (∀ now, Instr.enqn [0x44] false none ≠ .poll now) ∧ Instr.enqn [0x44] false none ≠ .clear ∧
    ∃ t, exec (.enqn [0x44] false none) base = .next t :=
  ⟨by simp, by simp, ⟨_, rfl⟩⟩

theorem test_hyps_EncodeBuildsFrame : base.CodesLegal := by decide

theorem test_hyps_DecodeChecksInOrder : base.CodesLegal := by decide

theorem test_hyps_EncodedFrameWellFormed (c : Bytes) (h : c.length = 254) : 1 ≤ c.length ∧ c.length ≤ 254 := by omega

/-- The command bytes next to 0x7F, and the longest command string. -/
theorem test_hyps_CodecRoundTrip (c : Bytes) (h : c.length = 252) :
    (commandString 0x7E (some 0x05) c).length ≤ 254 ∧ (0x7E : Byte).toNat ≤ 0x7E ∧ (0x7F : Byte) = 0x7F ∧
    0x80 ≤ (0x80 : Byte).toNat := by simp [commandString, h]

theorem test_hyps_WrongLengthRejected :
    [(0x4F : Byte), 0x02, 0xC4].length < 4 ∧ 4 ≤ [(0x4F : Byte), 0x03, 0xC4, 0x89].length ∧
    (byteAt [0x4F, 0x03, 0xC4, 0x89] 1).toNat ≠ [(0x4F : Byte), 0x03, 0xC4, 0x89].length - 2 := by decide

/-- The length byte (`i = 1`), and the last byte of the frame; the highest bit. -/
theorem test_hyps_SingleBitErrorRejected :
    decodeFrame reply44 (some 0x44) none none = .ok (frameRecord reply44) ∧ 1 < reply44.length ∧ 3 < reply44.length ∧
    7 < 8 := by decide

theorem test_hyps_BreakDiscardsBytes :
    holding.CodesLegal ∧ holding.lineBreak = true ∧ holding.qstate ≠ 2 ∧
    ({ holding with inbox := [.wire reply44] } : State).inbox = .wire reply44 :: [] ∧
    Instr.clear.isRequest = true ∧ (∃ t, exec .clear { holding with rxin := received true reply44 } = .next t) ∧
    (∃ t, exec (.poll 1) { base with rxin := received true [0x4F] ++ traffic reply44 } = .next t ∧ t.rxDone = true) :=
  ⟨by decide, rfl, by decide, rfl, rfl, ⟨_, rfl⟩, ⟨_, rfl, rfl⟩⟩

/-- Noise, a reply, and the echo that follows it; and the shortest frame, of either direction. -/
theorem test_hyps_FrameReassembled :
    let s := { sending with rxin := traffic [0x00, 0x4F, 0x02, 0xC4, 0x89, 0xF4] }
    let u := { sending with rxin := traffic [0xF4, 0x00] }
    (s.CodesLegal ∧ s.lineBreak = false ∧ s.frPhase = 0 ∧ s.par.txHeader ≠ s.par.rxHeader ∧ s.qstate ≠ 2 ∧
      (∀ b ∈ [(0x00 : Byte)], b ≠ s.par.txHeader ∧ b ≠ s.par.rxHeader) ∧ [0xC4, 0x89].length = (0x02 : Byte).toNat ∧
      s.rxin = traffic ([0x00] ++ 0x4F :: 0x02 :: [0xC4, 0x89]) ++ traffic [0xF4] ∧ (0x4F : Byte) = s.par.rxHeader) ∧
    u.CodesLegal ∧ u.lineBreak = false ∧ u.frPhase = 0 ∧ u.qstate ≠ 2 ∧ ([] : Bytes).length = (0x00 : Byte).toNat ∧
      u.rxin = traffic ([] ++ 0xF4 :: 0x00 :: []) ++ [] ∧ (0xF4 : Byte) = u.par.txHeader := by decide

theorem test_hyps_NoiseDropped :
    let s := { base with rxin := traffic [0x00, 0xF3, 0xF5, 0x4E, 0x50] ++ received true [0xF4, 0x4F] }
    s.CodesLegal ∧ s.lineBreak = false ∧ s.frPhase = 0 ∧ s.qstate ≠ 2 ∧
      ∀ r ∈ s.rxin, r.inBreak = true ∨ (r.byte ≠ s.par.txHeader ∧ r.byte ≠ s.par.rxHeader) := by decide

/-- A POLL over two replies, and another operation. -/
theorem test_hyps_AtMostOneFramePerPoll :
    (∃ t, exec (.poll 1) { base with rxin := traffic (reply44 ++ reply44) } = .next t ∧ t.rxDone = true) ∧
    (∃ t, exec .clear base = .next t) ∧ ∀ now, Instr.clear ≠ .poll now :=
  ⟨⟨_, rfl, by decide⟩, ⟨_, rfl⟩, by intro now h; cases h⟩

/-- In SENDING: the first two bytes of a reply, then the other two. -/
theorem test_hyps_FrameSpansPolls :
    sending.lineBreak = false ∧ sending.qstate ≠ 2 ∧
    (framed { sending with rxin := traffic [0x4F, 0x02] }).rxDone = false ∧
    (framed { sending with rxin := traffic [0x4F, 0x02] }).txDone = false ∧
    ∃ u v w, exec (.poll 1) { sending with rxin := traffic [0x4F, 0x02] } = .next u ∧
      u = (framed { sending with rxin := traffic [0x4F, 0x02] }).done [] [] ∧ u.rxDone = false ∧ u.txDone = false ∧
      exec (.poll 2) { u with rxin := traffic [0xC4, 0x89] } = .next v ∧
      exec (.poll 2) { sending with rxin := traffic [0x4F, 0x02] ++ traffic [0xC4, 0x89] } = .next w ∧ u.qstate ≠ 2 :=
  ⟨rfl, by decide, rfl, rfl, _, _, _, rfl, rfl, rfl, rfl, rfl, rfl, by decide⟩

/-- One millisecond before the spacing interval ends. -/
theorem test_hyps_IdleWaits :
    base.CodesLegal ∧ base.qstate = 0 ∧ (base.pq = [] ∧ base.nq = []) ∧
    let s := { base with spacingArmed := true, spacingStart := 1020, cfgSpacing := 100, nq := [⟨[0x44], false, none⟩] }
    s.CodesLegal ∧ s.qstate = 0 ∧ s.spacingArmed = true ∧
      ((1119 : U32) - s.spacingStart).toNat < s.cfgSpacing.toNat := by decide

/-- Just as the spacing interval ends, a queue each. -/
theorem test_hyps_IdleDispatches :
    let s := { base with spacingArmed := true, spacingStart := 1020, cfgSpacing := 100, nq := [⟨[0x44], false, none⟩] }
    let u := { base with pq := [⟨[0x38], true, none⟩] }
    (s.CodesLegal ∧ s.qstate = 0 ∧ s.cfgSpacing.toNat ≤ ((1120 : U32) - s.spacingStart).toNat ∧
      s.pq = [] ∧ s.nq = ⟨[0x44], false, none⟩ :: []) ∧
    u.CodesLegal ∧ u.qstate = 0 ∧ u.spacingArmed = false ∧ u.pq = ⟨[0x38], true, none⟩ :: [] := by decide

/-- A command without loop, and a loop command taken from either queue. -/
theorem test_hyps_CompletionEndsExchange :
    (replied.CodesLegal ∧ replied.qstate = 1 ∧ replied.slot.cmd = 0x44 :: [] ∧
      replied.slot.cmd.length ≤ replied.par.cmdMaxBytes ∧ (framed replied).rxDone = true ∧
      decodeFrame (framed replied).rxFrame (some 0x44) none none = .ok (frameRecord reply44) ∧
      replied.slot.loop = false) ∧
    let s := { replied with slot := { replied.slot with loop := true } }
    let u := { replied with slot := { replied.slot with loop := true, origin := .prio } }
    (s.CodesLegal ∧ s.qstate = 1 ∧ s.slot.cmd = 0x44 :: [] ∧ s.slot.cmd.length ≤ s.par.cmdMaxBytes ∧
      (framed s).rxDone = true ∧
      decodeFrame (framed s).rxFrame (some 0x44) none none = .ok (frameRecord reply44) ∧ s.slot.loop = true ∧
      (frameRecord reply44).nak = false ∧ s.slot.origin = .norm) ∧
    u.CodesLegal ∧ u.qstate = 1 ∧ u.slot.cmd = 0x44 :: [] ∧ (framed u).rxDone = true ∧
      decodeFrame (framed u).rxFrame (some 0x44) none none = .ok (frameRecord reply44) ∧ u.slot.loop = true ∧
      u.slot.origin = .prio := by decide

theorem test_hyps_NakCompletes :
    let s := { sending with rxin := traffic [0x4F, 0x02, 0x7F, 0x32] }
    s.CodesLegal ∧ s.qstate = 1 ∧ (framed s).rxDone = true ∧ wellFormedFrame (framed s).rxFrame = true ∧
      byteAt (framed s).rxFrame 2 = 0x7F := by decide

/-- No reply, and a rejected one (V1). -/
theorem test_hyps_SendingWithoutReply :
    let s := { sending with rxin := traffic [0x4F, 0x02, 0xC4, 0x88] }
    (sending.CodesLegal ∧ sending.qstate = 1 ∧ sending.slot.cmd = 0x44 :: [] ∧ (framed sending).rxDone = false) ∧
    s.CodesLegal ∧ s.qstate = 1 ∧ s.slot.cmd = 0x44 :: [] ∧ (framed s).rxDone = true ∧
      decodeFrame (framed s).rxFrame (some 0x44) none none = .error .decChecksum := by decide

theorem test_hyps_EchoCompletesNothing :
    let s := { sending with rxin := traffic [0xF4, 0x02, 0x44, 0xB2] }
    s.CodesLegal ∧ s.qstate = 1 ∧ s.lineBreak = false ∧ s.frPhase = 0 ∧ s.frBuf = [] ∧ s.frCount = 0 ∧
      s.frDeclLen = 0 ∧ [(0x44 : Byte), 0xB2].length = (0x02 : Byte).toNat ∧
      s.rxin = traffic (s.par.txHeader :: 0x02 :: [0x44, 0xB2]) ∧ ((99 : U32) - s.timerStart).toNat < s.timerDur.toNat := by decide

theorem test_hyps_BreakSetDrivesLow :
    ({ sending with qstate := 2 } : State).CodesLegal ∧ ({ sending with qstate := 2 } : State).qstate = 2 := by decide

theorem test_hyps_BreakResetReleases : holding.CodesLegal ∧ holding.qstate = 3 := by decide

theorem test_hyps_RetryDecides : retrying.CodesLegal ∧ retrying.qstate = 4 := by decide

theorem test_hyps_PollReturnsOk : sending.CodesLegal := by decide

/-- POLL, CLEAR and an operation that emits nothing. -/
theorem test_hyps_EventListShapes :
    (∃ t, exec (.poll 100) sending = .next t) ∧ (∃ t, exec .clear base = .next t) ∧
    (∃ t, exec .isIdle base = .next t) ∧ (Instr.poll 100).isRequest = true := ⟨⟨_, rfl⟩, ⟨_, rfl⟩, ⟨_, rfl⟩, rfl⟩

/-- A timeout, and a CLEAR while a command is in flight. -/
theorem test_hyps_TransitionSummary :
    (∃ t, exec (.poll 100) sending = .next t ∧ t.qstate ≠ sending.qstate) ∧
    (∃ t, exec .clear sending = .next t ∧ t.qstate ≠ sending.qstate) :=
  ⟨⟨_, rfl, by decide⟩, ⟨_, rfl, by decide⟩⟩

theorem test_hyps_FatalErrorClearsSession :
    ∃ t, exec (.poll 460) { retrying with attempt := 3 } = .next t ∧
      Event.failed (some 3) .retriesExhausted 4 ∈ t.out.events := ⟨_, rfl, by decide⟩

/-- The budgets 0 and 2, from either queue; intervals end just as they elapse. The first attempt of the second run sees
its echo and a reply to another command, which is rejected. -/
theorem test_hyps_RetryBound :
    let quiet : AttemptPolls := ⟨[], ⟨[], 100⟩, ⟨[], 110⟩, [], ⟨[], 160⟩, [], ⟨[], 210⟩⟩
    let noisy : AttemptPolls :=
      ⟨[⟨[0xF4, 0x02, 0x44, 0xB2], 1⟩, ⟨reply44, 99⟩], ⟨[0x4F], 100⟩, ⟨[0x02], 110⟩, [⟨[0x00], 159⟩], ⟨[], 160⟩,
        [⟨reply44, 209⟩], ⟨[], 210⟩⟩
    let late : AttemptPolls := ⟨[], ⟨[], 310⟩, ⟨[], 310⟩, [], ⟨[], 360⟩, [], ⟨[], 410⟩⟩
    let s := { base with cfgMaxRetries := 0, nq := [⟨[0x44], false, some 1⟩], txAnswers := [true] }
    let u := { base with cfgMaxRetries := 2, pq := [⟨[0x50], true, some 1⟩], txAnswers := [true, true, false] }
    (s.CodesLegal ∧ s.qstate = 0 ∧ s.spacingArmed = false ∧ (s.pq = [] ∧ s.nq = ⟨[0x44], false, some 1⟩ :: []) ∧
      [quiet].length = max s.cfgMaxRetries.toNat 1 ∧
      s.txAnswers = List.replicate (max s.cfgMaxRetries.toNat 1) true ++ [] ∧
      IntervalsElapse s.cfgTimeout s.cfgBreak 0 [quiet] ∧
      noReplyAccepted 0x44 (⟨[], 0⟩ :: ([quiet].map AttemptPolls.polls).flatten) s = true) ∧
    u.CodesLegal ∧ u.qstate = 0 ∧ u.spacingArmed = false ∧ u.pq = ⟨[0x50], true, some 1⟩ :: [] ∧
      [noisy, late].length = max u.cfgMaxRetries.toNat 1 ∧
      u.txAnswers = List.replicate (max u.cfgMaxRetries.toNat 1) true ++ [false] ∧
      IntervalsElapse u.cfgTimeout u.cfgBreak 0 [noisy, late] ∧
      noReplyAccepted 0x50 (⟨[], 0⟩ :: ([noisy, late].map AttemptPolls.polls).flatten) u = true := by
  refine ⟨⟨by decide, rfl, rfl, ⟨rfl, rfl⟩, rfl, rfl, ?_, ?_⟩, by decide, rfl, rfl, rfl, rfl, rfl, ?_, ?_⟩
  · exact ⟨⟨by decide, by decide⟩, ⟨by decide, by decide⟩, ⟨by decide, by decide⟩, trivial⟩
  · decide
  · exact ⟨⟨by decide, by decide⟩, ⟨by decide, by decide⟩, ⟨by decide, by decide⟩, ⟨by decide, by decide⟩,
      ⟨by decide, by decide⟩, ⟨by decide, by decide⟩, trivial⟩
  · decide

theorem test_hyps_ReadsHaveNoSideEffect :
    (∃ t, exec (.readReg 0x16) sending = .next t) ∧ (∃ t, exec (.readFrame .rx) sending = .next t) ∧
    (∃ t, exec .isIdle sending = .next t) ∧ (∃ t, exec .pending sending = .next t) ∧
    (∃ t, exec (.encodeOp .tx 0x44 none []) sending = .next t) ∧
    (∃ t, exec (.decodeOp reply44 none none none) sending = .next t) :=
  ⟨⟨_, rfl⟩, ⟨_, rfl⟩, ⟨_, rfl⟩, ⟨_, rfl⟩, ⟨_, rfl⟩, ⟨_, rfl⟩⟩

theorem test_hyps_RaisesArePrecise :
    ∃ t, exec (.setCapacity .norm 5) sending = .next t ∧ t.out.result = some (.raise .badArg) ∧
      (Instr.setCapacity .norm 5).isRequest = true := ⟨_, rfl, by decide, rfl⟩

/-- A write of each configuration register. -/
theorem test_hyps_ConfigurationWriters :
    (∃ t, exec (.setTiming 1 2 3) base = .next t ∧ t.cfgSpacing ≠ base.cfgSpacing) ∧
    (∃ t, exec (.setMaxRetries 4) base = .next t ∧ t.cfgMaxRetries ≠ base.cfgMaxRetries) ∧
    (∃ t, exec (.setCapacity .prio 0) base = .next t ∧ t.cfgCapP ≠ base.cfgCapP) :=
  ⟨⟨_, rfl, by decide⟩, ⟨_, rfl, by decide⟩, ⟨_, rfl, by decide⟩⟩

/-- The bus driven low, then released by the hold's end and by CLEAR. -/
theorem test_hyps_BreakDriveWriters :
    (∃ t, exec (.poll 400) { sending with qstate := 2 } = .next t ∧ t.lineBreak = true) ∧
    (∃ t, exec (.poll 430) holding = .next t ∧ t.lineBreak = false) ∧
    (∃ t, exec .clear holding = .next t ∧ t.lineBreak = false) ∧ sending.lineBreak = false ∧ holding.lineBreak = true :=
  ⟨⟨_, rfl, by decide⟩, ⟨_, rfl, by decide⟩, ⟨_, rfl, by decide⟩, rfl, rfl⟩

theorem test_hyps_ParametersFixed : ∃ t, step (pending (.request [0x04])) = .next t := ⟨_, rfl⟩

theorem test_hyps_IllegalOpcodeAnswered : base.CodesLegal := by decide

theorem test_hyps_ResetValues : Config.params.Ok := by decide

theorem test_hyps_FirstPollDispatches :
    Config.params.Ok ∧ 1 ≤ [(0x44 : Byte)].length ∧ [(0x44 : Byte)].length ≤ Config.params.cmdMaxBytes := by decide

theorem test_hyps_ResetMeetsInvariant : Config.params.Ok := by decide

/-- A state in the middle of an exchange, and of a frame, meets the invariant, and a POLL is pending there. -/
theorem test_hyps_StepKeepsInvariant :
    let s := { sending with
      frPhase := 2, frBuf := [0x4F, 0x02], frCount := 2, frDeclLen := 2, inbox := [.request [0x0D, 0, 0, 0, 1]] }
    s.Inv ∧ ∃ t, step s = .next t :=
  ⟨⟨by decide, by decide, by decide, by decide, by decide, by decide, by decide, by decide,
    by simp [State.SlotLegal, State.CommandLegal, sending, base, State.reset, State.resetOf, Config.params, encodeFrame,
      frameHead, lengthByte],
    by decide, by decide, by decide⟩, ⟨_, rfl⟩⟩

theorem test_hyps_InvariantStatesNeverStop : retrying.Inv :=
  ⟨by decide, by decide, by decide, by decide, by decide, by decide, by decide, by decide,
    by simp [State.SlotLegal, State.CommandLegal, retrying, sending, base, State.reset, State.resetOf, Config.params,
      encodeFrame, frameHead, lengthByte],
    by decide, by decide, by decide⟩

/-! ## The duties of the environment (R243) -/

/-- A queued `44`; the environment says whether the line can send. -/
def queued : State := { base with pq := [⟨[0x44], false, some 3⟩], txAnswers := [true] }

def echo44 : Bytes := [0xF4, 0x02, 0x44, 0xB2]

/-- R241: echo and reply arrive together, the command completes at the second POLL after them. -/
theorem test_duties_echo_then_reply :
    (envRun [.poll 0 true, .echo echo44, .noise [0x00], .reply reply44 true, .poll 20 true, .poll 40 true] Environment.start
      queued).map (fun r => r.2.2) =
      some [.transmitted (some 3) 1, .complete (some 3) false 1 echo44 reply44] := by decide

theorem test_duties_met :
    dutiesMet [.poll 0 true, .echo [0xF4, 0x02], .echo [0x44, 0xB2], .poll 20 true] Environment.start queued = true := by
  decide

/-- Duty 1. -/
theorem test_duties_time_backwards : envRun [.poll 5 true, .poll 4 true] Environment.start base = none := by decide
theorem test_duties_gap : (Environment.mk (some 1) [] false).timeAdvances (2 ^ 32 + 1) = false := by decide
/-- Duty 2: the echo is missing. -/
theorem test_duties_no_echo : dutiesMet [.poll 0 true] Environment.start queued = false := by decide
/-- Duty 3: the reply before the echo, and in the middle of it. -/
theorem test_duties_reply_first : envRun [.poll 0 true, .reply reply44 true] Environment.start queued = none := by decide
theorem test_duties_reply_inside :
    envRun [.poll 0 true, .echo [0xF4], .reply reply44 true] Environment.start queued = none := by decide
/-- An echo does not split a device frame (C4); a frame begun before the transmission may end before the echo. -/
theorem test_duties_echo_inside_device_frame :
    envRun [.reply [0x4F, 0x02] false, .poll 0 true, .echo echo44] Environment.start queued = none := by decide
theorem test_duties_device_frame_ends_first :
    dutiesMet [.reply [0x4F, 0x02] false, .poll 0 true, .reply [0xC4, 0x89] true, .echo echo44, .reply reply44 true]
      Environment.start queued = true := by decide
/-- Duty 4: an echo after a transmission that failed, and an answer that is not true. -/
theorem test_duties_echo_of_failed :
    envRun [.poll 0 false, .echo [0xF4]] Environment.start { queued with txAnswers := [false] } = none := by decide
theorem test_duties_false_answer : envRun [.poll 0 false] Environment.start queued = none := by decide
/-- Duty 5: no echo and no reply while the bus is held low, and no byte of the hold framed after a CLEAR (R249). A byte
received before the hold is not the hold's. -/
theorem test_duties_reply_in_hold : envRun [.reply reply44 true] Environment.start holding = none := by decide
theorem test_duties_echo_in_hold : envRun [.echo [0xF4]] (Environment.mk none echo44 false) holding = none := by decide
theorem test_duties_clear_in_hold :
    (envRun [.noise [0x4F], .request [0x03], .reply reply44 true, .poll 411 true] Environment.start holding).map
      (fun r => (r.2.1.lineBreak, r.2.1.frBuf, r.2.1.rxFrame)) = some (false, [], reply44) := by decide
theorem test_clear_keeps_earlier_bytes :
    got State.rxin (exec .clear { holding with rxin := traffic [0x4F] }) = some (traffic [0x4F]) := by decide
/-- Duty 6: the host's request is not the time source's POLL. -/
theorem test_duties_host_poll : envRun [.request [0x0D, 0, 0, 0, 1]] Environment.start base = none := by decide

/-- Each clause just where its interval ends, over the wrap of `now`. -/
theorem test_hyps_IntervalsMeasureRealTime :
    let e : Environment := { lastPoll := some 4294967290, echoOwed := [], replyOpen := false }
    let at' := fun (s : State) => { s with timerStart := nowAt 4294967280, timerDur := 30, spacingArmed := true,
                                           spacingStart := nowAt 4294967280, cfgSpacing := 30, pq := queued.pq }
    4294967280 ≤ 4294967290 ∧ 4294967310 - 4294967280 < 2 ^ 32 ∧ e.lastPoll = some 4294967290 ∧
    (∃ x, envStep (.poll 4294967310 true) e (at' sending) = some x ∧ x.2.rxDone = false) ∧
    (∃ x, envStep (.poll 4294967310 true) e (at' holding) = some x) ∧
    (∃ x, envStep (.poll 4294967310 true) e (at' retrying) = some x) ∧
    (∃ x, envStep (.poll 4294967310 true) e (at' queued) = some x) :=
  ⟨by decide, by decide, rfl, ⟨_, rfl, rfl⟩, ⟨_, rfl⟩, ⟨_, rfl⟩, ⟨_, rfl⟩⟩

theorem test_hyps_EchoDelaysReply :
    queued.Inv ∧ queued.qstate = 0 ∧ queued.rxin = [] ∧ queued.frPhase = 0 ∧
    queued.spacingArmed = false ∧ queued.pq = ⟨[0x44], false, some 3⟩ :: [] ∧ queued.nextTxOk = true ∧
    Environment.start.echoOwed = [] ∧ Environment.start.replyOpen = false ∧ Environment.start.timeAdvances 0 = true ∧ 99 - 0 < queued.cfgTimeout.toNat ∧
    500 - 99 < 2 ^ 32 ∧ reply44.head? = some queued.par.rxHeader ∧
    ∃ r, decodeFrame reply44 ([0x44] : Bytes).head? none none = .ok r :=
  ⟨⟨by decide, by decide, by decide, by decide, by decide, by decide, by decide, by decide, by decide, by decide,
    by decide, by decide⟩, rfl, rfl, rfl, rfl, rfl, rfl, rfl, rfl, rfl, by decide, by decide, rfl, ⟨_, rfl⟩⟩


end Sys2Proof.Tests
end

section
/-! The state after reset (R35, R230). -/

namespace Sys2Proof.Machine

/-- R5: both queue depths fit the 16-bit capacity registers of R30. -/
theorem depths_lt_of_ok {p : Params} (hp : p.Ok) : p.qdepthP < 2 ^ 16 ∧ p.qdepthN < 2 ^ 16 := by
  obtain ⟨_, _, _, hsum, _⟩ := hp
  omega

/-- R35: `CFG_CAP_P` holds the whole of `QDEPTH_P`, nothing of it cut off. -/
theorem resetOf_cfgCapP_toNat {p : Params} (hp : p.Ok) : (State.resetOf p).cfgCapP.toNat = p.qdepthP :=
  (BitVec.toNat_ofNat ..).trans (Nat.mod_eq_of_lt (depths_lt_of_ok hp).1)

/-- R35: `CFG_CAP_N` holds the whole of `QDEPTH_N`, nothing of it cut off. -/
theorem resetOf_cfgCapN_toNat {p : Params} (hp : p.Ok) : (State.resetOf p).cfgCapN.toNat = p.qdepthN :=
  (BitVec.toNat_ofNat ..).trans (Nat.mod_eq_of_lt (depths_lt_of_ok hp).2)

/-- Settles O54: `State.resetOf` writes every element as the table of R35 has it; only the two capacities, which it cuts
to 16 bits, rest on the legality of the parameters. -/
theorem resetValues : Obligations.ResetValues := by
  intro p hp
  have hcapP := resetOf_cfgCapP_toNat hp
  have hcapN := resetOf_cfgCapN_toNat hp
  exact ⟨rfl, rfl, rfl, rfl, rfl, rfl, rfl, rfl, rfl, rfl, rfl, rfl, rfl, rfl, hcapP, hcapN,
    rfl, rfl, rfl, rfl, rfl, rfl, rfl, rfl⟩

end Sys2Proof.Machine
end

section
/-! Host requests that are no instruction (R75, R77): what each operand decoder accepts, and the refusal as a step. -/

namespace Sys2Proof

theorem Decoded.exists_of_map_eq_ok {α β : Type} {f : α → β} {d : Decoded α} {b : β} (h : d.map f = .ok b) :
    ∃ a, d = .ok a := by
  cases d with
  | ok a => exact ⟨a, rfl⟩
  | reject r => cases h

theorem toNat_lt_two_of_queueOfByte {b : Byte} {q : Queue} (h : queueOfByte b = some q) : b.toNat < 2 := by
  unfold queueOfByte at h
  split at h
  · simp [*]
  · split at h
    · simp [*]
    · cases h

theorem toNat_lt_two_of_dirOfByte {b : Byte} {d : Dir} (h : dirOfByte b = some d) : b.toNat < 2 := by
  unfold dirOfByte at h
  split at h
  · simp [*]
  · split at h
    · simp [*]
    · cases h

theorem decodeEnqueue_ok {bs : Bytes} {x : Bytes × Bool × Option U16} (h : decodeEnqueue bs = .ok x) :
    byteAt bs 0 &&& 0xFC = 0 ∧ bs.length = 4 + (byteAt bs 3).toNat := by
  unfold decodeEnqueue at h
  split at h
  case h_1 flags hi lo n c =>
    split at h
    · cases h
    next hflags =>
      split at h
      · cases h
      next hn => exact ⟨not_not.1 hflags, by simp [byteAt]; omega⟩
  case h_2 => cases h

theorem decodeBare_ok {i j : Instr} {bs : Bytes} (h : decodeBare i bs = .ok j) : bs.length = 0 := by
  unfold decodeBare at h
  split at h
  · rfl
  · cases h

theorem decodeSetTiming_ok {bs : Bytes} {i : Instr} (h : decodeSetTiming bs = .ok i) : bs.length = 12 := by
  unfold decodeSetTiming at h
  split at h
  · rfl
  · cases h

theorem decodeOneByte_ok {f : Byte → Instr} {bs : Bytes} {i : Instr} (h : decodeOneByte f bs = .ok i) :
    bs.length = 1 := by
  unfold decodeOneByte at h
  split at h
  · rfl
  · cases h

theorem decodeSetCapacity_ok {bs : Bytes} {i : Instr} (h : decodeSetCapacity bs = .ok i) :
    (byteAt bs 0).toNat < 2 ∧ bs.length = 3 := by
  unfold decodeSetCapacity at h
  split at h
  · split at h
    next hq => exact ⟨toNat_lt_two_of_queueOfByte hq, rfl⟩
    · cases h
  · cases h

theorem decodeReadFrame_ok {bs : Bytes} {i : Instr} (h : decodeReadFrame bs = .ok i) :
    (byteAt bs 0).toNat < 2 ∧ bs.length = 1 := by
  unfold decodeReadFrame at h
  split at h
  · split at h
    next hd => exact ⟨toNat_lt_two_of_dirOfByte hd, rfl⟩
    · cases h
  · cases h

theorem decodeEncode_ok {bs : Bytes} {i : Instr} (h : decodeEncode bs = .ok i) :
    byteAt bs 0 &&& 0xFC = 0 ∧ bs.length = 4 + (byteAt bs 3).toNat := by
  unfold decodeEncode at h
  split at h
  case h_1 flags command index n payload =>
    split at h
    · cases h
    next hflags =>
      split at h
      · cases h
      next hn => exact ⟨not_not.1 hflags, by simp [byteAt]; omega⟩
  case h_2 => cases h

theorem decodeDecode_ok {bs : Bytes} {i : Instr} (h : decodeDecode bs = .ok i) :
    byteAt bs 0 &&& 0xF8 = 0 ∧ bs.length = 7 + (ofBe16 (byteAt bs 5) (byteAt bs 6)).toNat := by
  unfold decodeDecode at h
  split at h
  case h_1 flags cmd idx mhi mlo nhi nlo bytes =>
    split at h
    · cases h
    next hflags =>
      split at h
      · cases h
      next hn => exact ⟨not_not.1 hflags, by simp [byteAt]; omega⟩
  case h_2 => cases h

theorem decodePoll_ok {bs : Bytes} {i : Instr} (h : decodePoll bs = .ok i) : bs.length = 4 := by
  unfold decodePoll at h
  split at h
  · rfl
  · cases h

theorem toNat_of_unassignedOpcode {op : Byte} (h : unassignedOpcode op = true) : op.toNat = 0 ∨ 0x0E ≤ op.toNat := by
  rcases Bool.or_eq_true_iff.1 h with h0 | hE
  · exact .inl (by rw [beq_iff_eq.1 h0]; rfl)
  · exact .inr (of_decide_eq_true hE)

theorem decodeRequest_of_unassignedOpcode {op : Byte} (operands : Bytes) (h : unassignedOpcode op = true) :
    decodeRequest (op :: operands) = .ok (.reservedIllegalOp op operands) := by
  have hop := toNat_of_unassignedOpcode h
  simp only [decodeRequest]
  split
  case h_14 => rfl
  all_goals omega

/-- The thirteen operations of R74. -/
theorem eq_of_assignedOpcode {op : Byte} (h : unassignedOpcode op = false) :
    op = 0x01 ∨ op = 0x02 ∨ op = 0x03 ∨ op = 0x04 ∨ op = 0x05 ∨ op = 0x06 ∨ op = 0x07 ∨ op = 0x08 ∨ op = 0x09 ∨
      op = 0x0A ∨ op = 0x0B ∨ op = 0x0C ∨ op = 0x0D := by
  revert op
  decide

/-- The decoder accepts an assigned opcode only with the length that R75 gives its request. -/
theorem length_of_decodeRequest_ok {op : Byte} {operands : Bytes} {i : Instr} (hop : unassignedOpcode op = false)
    (h : decodeRequest (op :: operands) = .ok i) : (op :: operands).length = requestLength (op :: operands) := by
  rcases eq_of_assignedOpcode hop with
    rfl | rfl | rfl | rfl | rfl | rfl | rfl | rfl | rfl | rfl | rfl | rfl | rfl
  · obtain ⟨_, hx⟩ := Decoded.exists_of_map_eq_ok h
    exact (congrArg (· + 1) (decodeEnqueue_ok hx).2).trans (Nat.add_right_comm 4 _ 1)
  · obtain ⟨_, hx⟩ := Decoded.exists_of_map_eq_ok h
    exact (congrArg (· + 1) (decodeEnqueue_ok hx).2).trans (Nat.add_right_comm 4 _ 1)
  · exact congrArg (· + 1) (decodeBare_ok h)
  · exact congrArg (· + 1) (decodeBare_ok h)
  · exact congrArg (· + 1) (decodeBare_ok h)
  · exact congrArg (· + 1) (decodeSetTiming_ok h)
  · exact congrArg (· + 1) (decodeOneByte_ok h)
  · exact congrArg (· + 1) (decodeSetCapacity_ok h).2
  · exact congrArg (· + 1) (decodeOneByte_ok h)
  · exact congrArg (· + 1) (decodeReadFrame_ok h).2
  · exact (congrArg (· + 1) (decodeEncode_ok h).2).trans (Nat.add_right_comm 4 _ 1)
  · exact (congrArg (· + 1) (decodeDecode_ok h).2).trans (Nat.add_right_comm 7 _ 1)
  · exact congrArg (· + 1) (decodePoll_ok h)

/-- The decoder accepts no reserved flag bit of ENQN, ENQP and ENCODE. -/
theorem flags_of_decodeRequest_ok {op : Byte} {operands : Bytes} {i : Instr} (hop : op = 0x01 ∨ op = 0x02 ∨ op = 0x0B)
    (h : decodeRequest (op :: operands) = .ok i) : byteAt operands 0 &&& 0xFC = 0 := by
  rcases hop with rfl | rfl | rfl
  · obtain ⟨_, hx⟩ := Decoded.exists_of_map_eq_ok h
    exact (decodeEnqueue_ok hx).1
  · obtain ⟨_, hx⟩ := Decoded.exists_of_map_eq_ok h
    exact (decodeEnqueue_ok hx).1
  · exact (decodeEncode_ok h).1

/-- The decoder accepts no selector of SET_CAPACITY and READ_FRAME but 0 and 1. -/
theorem selector_of_decodeRequest_ok {op : Byte} {operands : Bytes} {i : Instr} (hop : op = 0x08 ∨ op = 0x0A)
    (h : decodeRequest (op :: operands) = .ok i) : (byteAt operands 0).toNat < 2 := by
  rcases hop with rfl | rfl
  · exact (decodeSetCapacity_ok h).1
  · exact (decodeReadFrame_ok h).1

end Sys2Proof

namespace Sys2Proof.Machine

/-- R33: register numbers 0x06, 0x07 and 0x16 to 0xFF are reserved. -/
theorem readRegister_of_reserved (s : State) {r : Byte} (h : r = 0x06 ∨ r = 0x07 ∨ 0x16 ≤ r.toNat) :
    readRegister s r = none := by
  rcases h with rfl | rfl | hr
  · rfl
  · rfl
  · unfold readRegister
    split
    case h_21 => rfl
    all_goals omega

theorem fetch_of_inbox {s : State} {i : Input} {rest : List Input} (hin : s.inbox = i :: rest) :
    fetch s = some (i, { s with inbox := rest }) := by
  unfold fetch
  rw [hin]

theorem step_of_decodeRequest_ok {s : State} {bs : Bytes} {rest : List Input} {i : Instr}
    (hin : s.inbox = .request bs :: rest) (h : decodeRequest bs = .ok i) : step s = exec i { s with inbox := rest } := by
  unfold step
  simp only [fetch_of_inbox hin, h]

theorem refuseRequest_of_legal {s : State} (hl : s.CodesLegal) (e : ErrCode) :
    refuseRequest e s = .next (s.answer (.raise e)) := runOp_of_legal hl

/-- Bytes at the host port that the decoder gives no instruction are answered `BAD_ARG`, whichever the reason. -/
theorem step_of_decodeRequest_not_ok {s : State} {bs : Bytes} {rest : List Input} (hl : s.CodesLegal)
    (hin : s.inbox = .request bs :: rest) (h : ∀ i, decodeRequest bs ≠ .ok i) :
    step s = .next (State.answer { s with inbox := rest } (.raise .badArg)) := by
  rcases hd : decodeRequest bs with i | r
  · exact absurd hd (h i)
  · have hl' : State.CodesLegal { s with inbox := rest } := hl
    rw [← refuseRequest_of_legal hl']
    unfold step
    simp only [fetch_of_inbox hin, hd]

/-- Settles O7: what the decoder accepts has the length, the flags and the selectors of R75, so that every other request
with an assigned opcode is answered `BAD_ARG` before any operation runs; the unassigned opcode and the reserved register
number do decode, and their own operations refuse them. -/
theorem reservedEncodingsRefused : Obligations.ReservedEncodingsRefused := by
  intro s op operands rest hl hin
  have hl' : State.CodesLegal { s with inbox := rest } := hl
  have hbad := step_of_decodeRequest_not_ok hl hin
  refine ⟨fun hop => ?_, fun hop hlen => ?_, fun hop _ hflags => ?_, fun hop _ hflags => ?_, fun hop _ hsel => ?_,
    fun hop r hr hres => ?_⟩
  · rw [step_of_decodeRequest_ok hin (decodeRequest_of_unassignedOpcode operands hop)]
    exact refuseRequest_of_legal hl' .illegalOp
  · exact hbad fun i h => hlen (length_of_decodeRequest_ok hop h)
  · exact hbad fun i h => hflags (flags_of_decodeRequest_ok hop h)
  · subst hop
    exact hbad fun i h => hflags (decodeDecode_ok h).1
  · exact hbad fun i h => Nat.not_lt.2 hsel (selector_of_decodeRequest_ok hop h)
  · subst hop hr
    rw [step_of_decodeRequest_ok hin (i := .readReg r) rfl]
    exact exec_readReg_of_none hl' (readRegister_of_reserved _ hres)

end Sys2Proof.Machine
end

section
/-! Host queue operations: the unassigned opcode (R151). -/

namespace Sys2Proof.Machine

/-- Settles O53: the operation of an unassigned opcode is a refused request, and a refusal in a state without reserved
codes answers its code and leaves all else as it was. -/
theorem illegalOpcodeAnswered : Obligations.IllegalOpcodeAnswered := by
  intro s op rest hl
  calc exec (.reservedIllegalOp op rest) s
    _ = refuseRequest .illegalOp s := exec_reservedIllegalOp op rest s
    _ = .next (s.answer (.raise .illegalOp)) := refuseRequest_of_legal hl .illegalOp

end Sys2Proof.Machine
end

section
/-! Phases A and B of POLL (R125, R126): what they leave unchanged, for the statements about phase C. -/

namespace Sys2Proof.Machine

/-- `s` with everything that phases A and B may write taken out: the framer's registers and `RXIN`. -/
def State.outsideFramer (s : State) : State :=
  { s with
    frPhase := frIdle, frBuf := [], frCount := 0, frDeclLen := 0, rxDone := false, txDone := false
    rxFrame := [], txFrame := [], rxin := [] }

theorem framerByte_outsideFramer (b : Byte) (s : State) : (framerByte b s).1.outsideFramer = s.outsideFramer :=
  (congrArg State.outsideFramer (framerByte_only b s) :)

theorem framerLoop_outsideFramer (bs : List Received) (s : State) :
    (framerLoop bs s).outsideFramer = s.outsideFramer := by
  induction bs generalizing s with
  | nil => rfl
  | cons r bs ih =>
    rw [framerLoop_cons]
    split
    · exact ih s
    · split
      · exact framerByte_outsideFramer r.byte s
      · exact (ih _).trans (framerByte_outsideFramer r.byte s)

theorem framed_outsideFramer (s : State) : (framed s).outsideFramer = s.outsideFramer := by
  unfold framed framerPhase
  split
  · rfl
  · exact framerLoop_outsideFramer _ (clearOneShot s)

@[simp] theorem framed_par (s : State) : (framed s).par = s.par := (congrArg State.par (framed_outsideFramer s) :)
@[simp] theorem framed_qstate (s : State) : (framed s).qstate = s.qstate :=
  (congrArg State.qstate (framed_outsideFramer s) :)
@[simp] theorem framed_attempt (s : State) : (framed s).attempt = s.attempt :=
  (congrArg State.attempt (framed_outsideFramer s) :)
@[simp] theorem framed_timerStart (s : State) : (framed s).timerStart = s.timerStart :=
  (congrArg State.timerStart (framed_outsideFramer s) :)
@[simp] theorem framed_timerDur (s : State) : (framed s).timerDur = s.timerDur :=
  (congrArg State.timerDur (framed_outsideFramer s) :)
@[simp] theorem framed_spacingArmed (s : State) : (framed s).spacingArmed = s.spacingArmed :=
  (congrArg State.spacingArmed (framed_outsideFramer s) :)
@[simp] theorem framed_spacingStart (s : State) : (framed s).spacingStart = s.spacingStart :=
  (congrArg State.spacingStart (framed_outsideFramer s) :)
@[simp] theorem framed_pq (s : State) : (framed s).pq = s.pq := (congrArg State.pq (framed_outsideFramer s) :)
@[simp] theorem framed_nq (s : State) : (framed s).nq = s.nq := (congrArg State.nq (framed_outsideFramer s) :)
@[simp] theorem framed_slot (s : State) : (framed s).slot = s.slot := (congrArg State.slot (framed_outsideFramer s) :)
@[simp] theorem framed_cfgSpacing (s : State) : (framed s).cfgSpacing = s.cfgSpacing :=
  (congrArg State.cfgSpacing (framed_outsideFramer s) :)
@[simp] theorem framed_cfgTimeout (s : State) : (framed s).cfgTimeout = s.cfgTimeout :=
  (congrArg State.cfgTimeout (framed_outsideFramer s) :)
@[simp] theorem framed_cfgBreak (s : State) : (framed s).cfgBreak = s.cfgBreak :=
  (congrArg State.cfgBreak (framed_outsideFramer s) :)
@[simp] theorem framed_cfgMaxRetries (s : State) : (framed s).cfgMaxRetries = s.cfgMaxRetries :=
  (congrArg State.cfgMaxRetries (framed_outsideFramer s) :)
@[simp] theorem framed_cfgCapP (s : State) : (framed s).cfgCapP = s.cfgCapP :=
  (congrArg State.cfgCapP (framed_outsideFramer s) :)
@[simp] theorem framed_cfgCapN (s : State) : (framed s).cfgCapN = s.cfgCapN :=
  (congrArg State.cfgCapN (framed_outsideFramer s) :)
/-- The line environment's next answer does not depend on what is framed before it is drawn. -/
@[simp] theorem framed_nextTxOk (s : State) : (framed s).nextTxOk = s.nextTxOk :=
  (congrArg State.nextTxOk (framed_outsideFramer s) :)

end Sys2Proof.Machine
end

section
/-! Sequencer (R162 to R172): a POLL in each state, as the whole next state. -/

namespace Sys2Proof.Machine

theorem timerElapsed_iff (s : State) (now : U32) :
    timerElapsed s now = true ↔ s.timerDur.toNat ≤ (now - s.timerStart).toNat := elapsed_iff ..

/-- The interval that runs when a POLL begins is the one its phase C tests. -/
theorem timerElapsed_framed (s : State) (now : U32) : timerElapsed (framed s) now = timerElapsed s now := by
  simp [timerElapsed]

/-- Settles O38: phase C is the BREAK_SET action on what phases A and B leave, and they do not write `CFG_BREAK_MS`. -/
theorem breakSetDrivesLow : Obligations.BreakSetDrivesLow := by
  intro s now hl hq
  rw [exec_poll_of_legal hl, stateAction_breakSet (s := (framed s).begin) now ((framed_qstate s).trans hq),
    ← framed_cfgBreak s]
  rfl

/-- Settles O39: the hold that the BREAK_RESET action tests is the one of the state the POLL found. -/
theorem breakResetReleases : Obligations.BreakResetReleases := by
  intro s now hl hq
  have htest : timerElapsed (framed s).begin now = timerElapsed s now := timerElapsed_framed s now
  rw [exec_poll_of_legal hl, stateAction_breakReset (s := (framed s).begin) now ((framed_qstate s).trans hq)]
  simp only [breakResetAction, htest, timerElapsed_iff]
  split
  · rfl
  · rfl

/-! The SENDING action (R165 to R169). -/

/-- In SENDING the reply is decoded with the first byte of the command in flight expected (R165). -/
theorem decodeReply_framed {s : State} {c₀ : Byte} {cs : Bytes} (hc : s.slot.cmd = c₀ :: cs) :
    decodeReply (framed s).begin = decodeFrame (framed s).rxFrame (some c₀) none none := by
  simp [decodeReply, hc]

theorem sendingAction_of_noFrame {s : State} (now : U32) (h : s.rxDone = false) :
    sendingAction now s = timeoutCheck now s := by
  simp [sendingAction, h]

theorem sendingAction_of_rejected {s : State} {code : ErrCode} (now : U32) (h : s.rxDone = true)
    (hd : decodeReply s = .error code) :
    sendingAction now s = timeoutCheck now (s.emit (.frameError s.slot.tag code)) := by
  simp [sendingAction, h, hd]

theorem sendingAction_of_accepted {s : State} {r : FrameRecord} (now : U32) (h : s.rxDone = true)
    (hd : decodeReply s = .ok r) : sendingAction now s = completeExchange now r.nak s := by
  simp [sendingAction, h, hd]

/-- The timeout test of a POLL that has emitted `es` so far. -/
theorem timeoutCheck_framed (now : U32) (s : State) (es : List Event) :
    (timeoutCheck now { framed s with out := { Out.empty with events := es } }).setResult (.ok .none) =
      if s.timerDur.toNat ≤ (now - s.timerStart).toNat then
        State.done { framed s with qstate := 2 } (es ++ [.timeout s.slot.tag s.attempt]) []
      else (framed s).done es [] := by
  have htest : timerElapsed { framed s with out := { Out.empty with events := es } } now = timerElapsed s now :=
    timerElapsed_framed s now
  simp only [timeoutCheck, htest, timerElapsed_iff]
  split
  · rw [← framed_slot s, ← framed_attempt s]
    rfl
  · rfl

/-- Settles O36: with no RX frame nothing, and with a rejected one its report, is emitted before the timeout test, which
reads the interval of the state the POLL found. -/
theorem sendingWithoutReply : Obligations.SendingWithoutReply := by
  intro s now c₀ cs es hl hq hc hes
  rw [exec_poll_of_legal hl, stateAction_sending (s := (framed s).begin) now ((framed_qstate s).trans hq),
    ← timeoutCheck_framed]
  rcases hes with ⟨hrx, rfl⟩ | ⟨code, hrx, hd, rfl⟩
  · rw [sendingAction_of_noFrame now (s := (framed s).begin) hrx]
    rfl
  · rw [sendingAction_of_rejected now (s := (framed s).begin) hrx ((decodeReply_framed hc).trans hd), ← framed_slot s]
    rfl

/-- The re-enqueue of a legal command: refused by a full queue or a duplicate, else at the tail (R167). -/
theorem loopRequeue_of_legal {s : State} (hc : s.CommandLegal s.slot.cmd) :
    loopRequeue s =
      if (s.capacity s.slot.origin).toNat ≤ (s.queue s.slot.origin).length ∨
          ∃ e ∈ s.queue s.slot.origin, e.cmd = s.slot.cmd then s
      else s.setQueue s.slot.origin
        (s.queue s.slot.origin ++ [{ cmd := s.slot.cmd, loop := true, tag := s.slot.tag }]) := by
  obtain ⟨hpos, hmax⟩ := hc
  unfold loopRequeue
  rcases enqueueCore_cases s.slot.origin s.slot.cmd true s.slot.tag s with
    ⟨hbad, _⟩ | ⟨hfull, h⟩ | ⟨hdup, h⟩ | ⟨_, hroom, hnew, h⟩
  · omega
  · rw [h, if_pos (.inl hfull)]
  · rw [h, if_pos (.inr hdup)]
  · rw [h, if_neg]
    rintro (hfull | ⟨e, he, heq⟩)
    · omega
    · exact hnew e he heq

theorem completeExchange_of_once {s : State} {nak : Bool} (now : U32) (h : s.slot.loop = false ∨ nak = true) :
    completeExchange now nak s = endExchange now (emitComplete nak s) := by
  rcases h with h | h <;> simp [completeExchange, h]

theorem completeExchange_of_loop {s : State} {nak : Bool} (now : U32) (hloop : s.slot.loop = true)
    (hnak : nak = false) : completeExchange now nak s = endExchange now (loopRequeue (emitComplete nak s)) := by
  simp [completeExchange, hloop, hnak]

theorem framed_queue (s : State) (q : Queue) : (framed s).queue q = s.queue q := by
  cases q
  · exact framed_pq s
  · exact framed_nq s

theorem framed_capacity (s : State) (q : Queue) : (framed s).capacity q = s.capacity q := by
  cases q
  · exact framed_cfgCapP s
  · exact framed_cfgCapN s

/-- The checks of `EnqueueCore` read no output port and its write leaves them alone (R142). -/
theorem enqueueCore_out (q : Queue) (c : Bytes) (loop : Bool) (tag : Option U16) (s : State) (o : Out) :
    enqueueCore q c loop tag { s with out := o } =
      (enqueueCore q c loop tag s).map fun t => { t with out := o } := by
  unfold enqueueCore
  simp only [apply_ite (Except.map fun t : State => { t with out := o })]
  cases q
  · rfl
  · rfl

/-- The re-enqueue reads no output port and writes none. -/
theorem loopRequeue_out (s : State) (o : Out) : loopRequeue { s with out := o } = { loopRequeue s with out := o } := by
  unfold loopRequeue
  rw [enqueueCore_out]
  cases enqueueCore s.slot.origin s.slot.cmd true s.slot.tag s
  · rfl
  · rfl

/-- What phases A and B do has no part in the re-enqueue: neither in whether it is refused nor in what it adds. -/
theorem loopRequeue_framed {s : State} (hc : s.CommandLegal s.slot.cmd) :
    loopRequeue (framed s) =
      if (s.capacity s.slot.origin).toNat ≤ (s.queue s.slot.origin).length ∨
          ∃ e ∈ s.queue s.slot.origin, e.cmd = s.slot.cmd then framed s
      else (framed s).setQueue s.slot.origin
        (s.queue s.slot.origin ++ [{ cmd := s.slot.cmd, loop := true, tag := s.slot.tag }]) := by
  have hlegal : (framed s).CommandLegal (framed s).slot.cmd := by
    rw [State.CommandLegal, framed_slot, framed_par]
    exact hc
  rw [loopRequeue_of_legal hlegal, framed_slot, framed_queue, framed_capacity]

/-- Settles O34: the accepted reply ends the exchange whatever the timer says, and the re-enqueue before it is the one
that the loop flag and the NAK of the reply decide; the two queues differ only in the origin. -/
theorem completionEndsExchange : Obligations.CompletionEndsExchange := by
  intro s now c₀ cs r hl hq hc hmax hrx hd ended again
  have hlegal : s.CommandLegal s.slot.cmd := ⟨by simp [hc], hmax⟩
  have hemit : emitComplete r.nak (framed s).begin =
      { framed s with
        out := { Out.empty with
          events := [.complete s.slot.tag r.nak s.attempt s.slot.txFrame (framed s).rxFrame] } } := by
    rw [← framed_slot s, ← framed_attempt s]
    rfl
  have hslot : (framed s).begin.slot = s.slot := framed_slot s
  rw [exec_poll_of_legal hl, stateAction_sending (s := (framed s).begin) now ((framed_qstate s).trans hq),
    sendingAction_of_accepted now (s := (framed s).begin) hrx ((decodeReply_framed hc).trans hd)]
  refine ⟨fun honce => ?_, fun hloop hnak horigin => ?_, fun hloop hnak horigin => ?_⟩
  · rw [completeExchange_of_once now (hslot ▸ honce), hemit]
    rfl
  · rw [completeExchange_of_loop now (hslot ▸ hloop) hnak, hemit, loopRequeue_out, loopRequeue_framed hlegal, horigin]
    rfl
  · rw [completeExchange_of_loop now (hslot ▸ hloop) hnak, hemit, loopRequeue_out, loopRequeue_framed hlegal, horigin]
    rfl

/-! Transmissions (R164). -/

/-- Both outcomes of a transmission as the whole state after a POLL that has emitted nothing before it. -/
theorem startAttempt_done (now : U32) (s : State) :
    (startAttempt now s.begin).setResult (.ok .none) =
      if s.nextTxOk then
        State.done { s.answerTaken with timerStart := now, timerDur := s.cfgTimeout, qstate := 1 }
          [.transmitted s.slot.tag s.attempt] [s.slot.txFrame]
      else
        s.answerTaken.cleared.done [.failed s.slot.tag .txFail s.attempt, .cleared .txFail] [s.slot.txFrame] := by
  rw [startAttempt_eq, show s.begin.nextTxOk = s.nextTxOk from rfl]
  split
  · rfl
  · rfl

/-- Settles O40: the interval, the budget and the frame the RETRY action works on are those of the state the POLL
found, with the attempt counted before the budget test. -/
theorem retryDecides : Obligations.RetryDecides := by
  intro s now hl hq u
  have htest : timerElapsed (framed s).begin now = timerElapsed s now := timerElapsed_framed s now
  have hbudget : retriesExhausted (countAttempt (framed s).begin) = true ↔
      s.cfgMaxRetries.toNat < (s.attempt + 1).toNat := by
    rw [retriesExhausted_iff, begin_attempt, begin_cfgMaxRetries, framed_attempt, framed_cfgMaxRetries]
  have hu : countAttempt (framed s).begin = u.begin := by
    simp only [u, ← framed_attempt s]
    rfl
  rw [exec_poll_of_legal hl, stateAction_retry (s := (framed s).begin) now ((framed_qstate s).trans hq)]
  simp only [retryAction, htest, timerElapsed_iff, hbudget]
  split
  · split
    · rw [hu, ← framed_slot s]
      rfl
    · rw [hu, startAttempt_done, ← framed_slot s, ← framed_cfgTimeout s, ← framed_nextTxOk s]
      rfl
  · rfl

/-! Dispatch (R148, R162, R163). -/

theorem spacingHolds_iff (s : State) (now : U32) :
    spacingHolds s now = true ↔ s.spacingArmed = false ∨ s.cfgSpacing.toNat ≤ (now - s.spacingStart).toNat := by
  simp [spacingHolds, elapsed_iff]

theorem dequeueNext_of_prio {s : State} {e : Entry} {rest : List Entry} (h : s.pq = e :: rest) :
    dequeueNext s = some (e, .prio, s.setQueue .prio rest) := by
  simp [dequeueNext, h]

theorem dequeueNext_of_norm {s : State} {e : Entry} {rest : List Entry} (hp : s.pq = []) (hn : s.nq = e :: rest) :
    dequeueNext s = some (e, .norm, s.setQueue .norm rest) := by
  simp [dequeueNext, hp, hn]

/-- With the spacing satisfied IDLE dispatches what `DequeueNext()` gives it. -/
theorem idleAction_of_next {now : U32} {s s' : State} {e : Entry} {origin : Queue} (hs : spacingHolds s now = true)
    (h : dequeueNext s = some (e, origin, s')) : idleAction now s = startAttempt now (loadSlot e origin s') := by
  have hne : s.pq.length + s.nq.length ≠ 0 := by
    intro h0
    have hp : s.pq = [] := List.eq_nil_of_length_eq_zero (by omega)
    have hn : s.nq = [] := List.eq_nil_of_length_eq_zero (by omega)
    simp [dequeueNext, hp, hn] at h
  simp only [idleAction, if_neg hne, if_pos hs, dispatch, h]

/-- Both outcomes of a dispatch from `q`, which keeps `rest`, as the whole state after the POLL (R163, R164). -/
theorem startAttempt_loadSlot_done (now : U32) (e : Entry) (q : Queue) (rest : List Entry) (s : State) :
    (startAttempt now (loadSlot e q ((framed s).begin.setQueue q rest))).setResult (.ok .none) =
      if s.nextTxOk then
        State.done
          { (framed s).answerTaken.setQueue q rest with
            slot :=
              { valid := true, cmd := e.cmd, loop := e.loop, tag := e.tag, origin := q
                txFrame := encodeFrame s.par.txHeader e.cmd }
            attempt := 1
            timerStart := now
            timerDur := s.cfgTimeout
            qstate := 1 }
          [.transmitted e.tag 1] [encodeFrame s.par.txHeader e.cmd]
      else
        (framed s).answerTaken.cleared.done [.failed e.tag .txFail 1, .cleared .txFail]
          [encodeFrame s.par.txHeader e.cmd] := by
  rw [← framed_nextTxOk s, ← framed_par s, ← framed_cfgTimeout s]
  cases q
  · exact startAttempt_done now (loadSlot e .prio ((framed s).setQueue .prio rest))
  · exact startAttempt_done now (loadSlot e .norm ((framed s).setQueue .norm rest))

/-- Settles O33: `DequeueNext()` takes the head of the priority queue, or with none there the head of the normal one,
and the attempt of the slot loaded with it ends as the line environment's answer says. -/
theorem idleDispatches : Obligations.IdleDispatches := by
  intro s now e rest hl hq hs u f sending txFailed
  have hspacing : spacingHolds (framed s).begin now = true := (spacingHolds_iff _ _).2 (by simpa using hs)
  have hpoll : exec (.poll now) s = .next ((idleAction now (framed s).begin).setResult (.ok .none)) := by
    rw [exec_poll_of_legal hl, stateAction_idle (s := (framed s).begin) now ((framed_qstate s).trans hq)]
  refine ⟨fun hp => ?_, fun hp hn => ?_⟩
  · have hnext := dequeueNext_of_prio (s := (framed s).begin) ((framed_pq s).trans hp)
    rw [hpoll, idleAction_of_next hspacing hnext, startAttempt_loadSlot_done]
    rfl
  · have hnext := dequeueNext_of_norm (s := (framed s).begin) ((framed_pq s).trans hp) ((framed_nq s).trans hn)
    rw [hpoll, idleAction_of_next hspacing hnext, startAttempt_loadSlot_done]
    rfl

end Sys2Proof.Machine
end

section
/-! What every instruction and every step can do, said once (R55, R120). -/

namespace Sys2Proof

/-- The host operations that neither emit an event nor run the sequencer: all but POLL and CLEAR (R205). -/
def Instr.IsQuiet (i : Instr) : Prop := i.isRequest = true ∧ (∀ now, i ≠ .poll now) ∧ i ≠ .clear

namespace Machine

open Host (Outcome)

theorem exec_poll_next {now : U32} {s t : State} :
    exec (.poll now) s = .next t ↔
      s.CodesLegal ∧ (stateAction now (framed s).begin).setResult (.ok .none) = t := by
  rw [exec_poll, runOp_next, framed_begin]
  rfl

/-- The shapes of what an instruction that completes leaves of `s`. -/
inductive Executed (s : State) : Instr → State → Prop where
  | polled (now : U32) : Executed s (.poll now) ((stateAction now (framed s).begin).setResult (.ok .none))
  | sessionCleared : Executed s .clear (s.cleared.done [.cleared .host] [])
  | enqueued (i : Instr) (q : Queue) (e : Entry) (hi : ∃ c l g, i = .enqn c l g ∨ i = .enqp c l g) (hcmd : s.CommandLegal e.cmd)
      (hroom : (s.queue q).length < (s.capacity q).toNat) (hnew : ∀ x ∈ s.queue q, x.cmd ≠ e.cmd) :
      Executed s i ((s.setQueue q (s.queue q ++ [e])).answer (.ok .none))
  | timingSet (spacing timeout brk : U32) :
      Executed s (.setTiming spacing timeout brk)
        (State.answer { s with cfgSpacing := spacing, cfgTimeout := timeout, cfgBreak := brk } (.ok .none))
  | retriesSet (n : BitVec 8) :
      Executed s (.setMaxRetries n) (State.answer { s with cfgMaxRetries := n } (.ok .none))
  | capacitySet (q : Queue) (n : U16) (hn : n.toNat ≤ s.depth q) :
      Executed s (.setCapacity q n) ((s.setCapacity q n).answer (.ok .none))
  | answered (i : Instr) (r : Result) (hi : i.IsQuiet) : Executed s i (s.answer r)
  | arrived (i : Instr) (hi : i.isRequest = false) : Executed s i (receive (encode s.par i) s)

/-- An operation that returns a value or a code and writes nothing leaves its answer. -/
theorem Executed.of_read {i : Instr} {s t : State} {x : State → Except ErrCode Value} (hi : i.IsQuiet)
    (h : runOp (fun s => (x s).map fun v => (s, v)) s = .next t) : Executed s i t := by
  obtain ⟨-, rfl⟩ := runOp_next.1 h
  cases x s.begin with
  | ok v => exact .answered i (.ok v) hi
  | error e => exact .answered i (.raise e) hi

theorem Executed.of_enqueue {q : Queue} {c : Bytes} {loop : Bool} {tag : Option U16} {i : Instr} {s t : State}
    (hi : ∃ c l g, i = .enqn c l g ∨ i = .enqp c l g) (h : runOp (enqueueOp q c loop tag) s = .next t) : Executed s i t := by
  obtain ⟨-, rfl⟩ := runOp_next.1 h
  have hquiet : i.IsQuiet := by
    obtain ⟨c, l, g, rfl | rfl⟩ := hi
    · exact ⟨rfl, nofun, nofun⟩
    · exact ⟨rfl, nofun, nofun⟩
  unfold enqueueOp
  rcases enqueueCore_cases q c loop tag s.begin with ⟨-, he⟩ | ⟨-, he⟩ | ⟨-, he⟩ | ⟨hc, hroom, hnew, he⟩ <;> rw [he]
  · exact .answered i _ hquiet
  · exact .answered i _ hquiet
  · exact .answered i _ hquiet
  · cases q
    · exact .enqueued i .prio _ hi hc hroom hnew
    · exact .enqueued i .norm _ hi hc hroom hnew

theorem Executed.of_setCapacity {q : Queue} {n : U16} {s t : State} (h : exec (.setCapacity q n) s = .next t) :
    Executed s (.setCapacity q n) t := by
  rw [exec_setCapacity] at h
  obtain ⟨-, rfl⟩ := runOp_next.1 h
  unfold setCapacityCore
  split
  · exact .answered _ _ ⟨rfl, nofun, nofun⟩
  next hn =>
    cases q
    · exact .capacitySet .prio n (Nat.not_lt.1 hn)
    · exact .capacitySet .norm n (Nat.not_lt.1 hn)

/-- Every instruction that completes leaves one of these shapes. -/
theorem executed_of_exec {i : Instr} {s t : State} (h : exec i s = .next t) : Executed s i t := by
  cases i with
  | enqn c l g => exact .of_enqueue ⟨c, l, g, .inl rfl⟩ ((exec_enqn c l g s).symm.trans h)
  | enqp c l g => exact .of_enqueue ⟨c, l, g, .inr rfl⟩ ((exec_enqp c l g s).symm.trans h)
  | clear =>
    obtain ⟨-, rfl⟩ := runOp_next.1 ((exec_clear s).symm.trans h)
    exact .sessionCleared
  | isIdle => exact .of_read (x := fun s => .ok (.idle (s.qstate = qIdle))) ⟨rfl, nofun, nofun⟩ h
  | pending => exact .of_read (x := fun s => .ok (.count (pendingCount s))) ⟨rfl, nofun, nofun⟩ h
  | setTiming a b c =>
    obtain ⟨-, rfl⟩ := runOp_next.1 ((exec_setTiming a b c s).symm.trans h)
    exact .timingSet a b c
  | setMaxRetries n =>
    obtain ⟨-, rfl⟩ := runOp_next.1 ((exec_setMaxRetries n s).symm.trans h)
    exact .retriesSet n
  | setCapacity q n => exact .of_setCapacity h
  | readReg r =>
    have hl : s.CodesLegal := legal_of_exec_next rfl h
    cases hr : readRegister s.begin r with
    | some v =>
      cases (exec_readReg_of_some hl hr).symm.trans h
      exact .answered _ _ ⟨rfl, nofun, nofun⟩
    | none =>
      cases (exec_readReg_of_none hl hr).symm.trans h
      exact .answered _ _ ⟨rfl, nofun, nofun⟩
  | readFrame d =>
    exact .of_read (x := fun s => .ok (.frame (frameRegister s d).1 (frameRegister s d).2)) ⟨rfl, nofun, nofun⟩ h
  | encodeOp d k x y =>
    obtain ⟨-, rfl⟩ := runOp_next.1 ((exec_encodeOp d k x y s).symm.trans h)
    cases encodeCore (headerOf s.begin.par d) (commandString k x y)
    · exact .answered _ _ ⟨rfl, nofun, nofun⟩
    · exact .answered _ _ ⟨rfl, nofun, nofun⟩
  | decodeOp b k x m =>
    obtain ⟨-, rfl⟩ := runOp_next.1 ((exec_decodeOp b k x m s).symm.trans h)
    cases decodeFrame b k x m
    · exact .answered _ _ ⟨rfl, nofun, nofun⟩
    · exact .answered _ _ ⟨rfl, nofun, nofun⟩
  | poll now =>
    obtain ⟨-, rfl⟩ := exec_poll_next.1 h
    exact .polled now
  | reservedIllegalOp op rest => exact .of_read (x := fun _ => .error .illegalOp) ⟨rfl, nofun, nofun⟩ h
  | frameEchoTx => cases h; exact .arrived _ rfl
  | frameReplyRx => cases h; exact .arrived _ rfl
  | frameNak => cases h; exact .arrived _ rfl
  | frameAck => cases h; exact .arrived _ rfl
  | framePlain => cases h; exact .arrived _ rfl

/-- What a step can do: nothing with nothing pending, else what its input asks for (R9, R55, R216). -/
theorem step_cases {s t : State} (h : step s = .next t) :
    (s.inbox = [] ∧ t = s) ∨
    ∃ input rest, s.inbox = input :: rest ∧
      ((∃ i, Executed { s with inbox := rest } i t) ∨
        t = State.answer { s with inbox := rest } (.raise .badArg) ∨
        ∃ bytes, t = receive bytes { s with inbox := rest }) := by
  cases hin : s.inbox with
  | nil =>
    refine .inl ⟨rfl, ?_⟩
    simp only [step, fetch, hin, Outcome.next.injEq] at h
    exact h.symm
  | cons input rest =>
    refine .inr ⟨input, rest, rfl, ?_⟩
    cases input with
    | wire bytes => exact .inr (.inr ⟨bytes, by rw [step_wire hin] at h; cases h; rfl⟩)
    | request bytes =>
      cases hd : decodeRequest bytes with
      | ok i =>
        rw [step_of_decodeRequest_ok hin hd] at h
        exact .inl ⟨i, executed_of_exec h⟩
      | reject r =>
        simp only [step, fetch, hin, hd] at h
        obtain ⟨-, rfl⟩ := runOp_next.1 h
        exact .inr (.inl rfl)

/-- In a state without reserved codes every instruction completes (U6, U7). -/
theorem exec_goes (i : Instr) {s : State} (hl : s.CodesLegal) : Goes (exec i s) := by
  cases hi : i.isRequest with
  | false => exact ⟨_, exec_frame i s hi⟩
  | true =>
    obtain ⟨op, ho⟩ := exec_request i s hi
    exact ⟨_, ho.trans (runOp_of_legal hl)⟩

theorem step_goes {s : State} (hl : s.CodesLegal) : Goes (step s) := by
  cases hin : s.inbox with
  | nil => exact ⟨s, by simp [step, fetch, hin]⟩
  | cons input rest =>
    have hl' : State.CodesLegal { s with inbox := rest } := hl
    cases input with
    | wire bytes => exact ⟨_, step_wire hin⟩
    | request bytes =>
      cases hd : decodeRequest bytes with
      | ok i =>
        rw [step_of_decodeRequest_ok hin hd]
        exact exec_goes i hl'
      | reject r => exact ⟨_, step_of_decodeRequest_not_ok hl hin (by simp [hd])⟩

/-- Settles O9: every request is an operation that completes unless a reserved code stops it, and an arrival always
completes. -/
theorem legalStateGoesOn : Obligations.LegalStateGoesOn := fun _ hl => ⟨fun i => exec_goes i hl, step_goes hl⟩

/-- Settles O8: every request runs through the one test that a reserved code fails, `QSTATE` first. -/
theorem reservedCodeStops : Obligations.ReservedCodeStops := by
  intro s i hi
  obtain ⟨op, ho⟩ := exec_request i s hi
  rw [ho, runOp, whenCodesLegal]
  exact ⟨fun hq => if_pos hq, fun hq hf => by rw [if_neg (Nat.not_lt.2 hq), if_pos hf]⟩

/-- Settles O6: the decoders choose what a step runs; bytes that are no complete frame are received as they stand. -/
theorem stepRunsDecodedInstruction : Obligations.StepRunsDecodedInstruction := by
  intro s bs rest i
  refine ⟨step_of_decodeRequest_ok, fun hin hd => ?_, fun hin _ => step_wire hin, fun hin => ?_⟩
  · simp [step, fetch, hin, hd]
  · simp [step, fetch, hin]

end Machine

end Sys2Proof
end

section
/-! Phase C of POLL (R160): the shapes of what the state action leaves, and what no state action writes. -/

namespace Sys2Proof.Machine

@[simp] theorem empty_events : Out.empty.events = [] := rfl
@[simp] theorem empty_sent : Out.empty.sent = [] := rfl

/-- `s` with its frame on the transmit port and the line environment's answer taken (R164). -/
def presented (s : State) : State :=
  State.answerTaken { s with out := { s.out with sent := s.out.sent ++ [s.slot.txFrame] } }

theorem startAttempt_of_ok (now : U32) {s : State} (h : s.nextTxOk = true) :
    startAttempt now s = attemptSent now (presented s) := (startAttempt_eq now s).trans (if_pos h)

theorem startAttempt_of_fail (now : U32) {s : State} (h : s.nextTxOk = false) :
    startAttempt now s = failSession .txFail (presented s) := (startAttempt_eq now s).trans (if_neg (by simp [h]))

/-- An RX frame completed and `Decode` accepts it as the reply (R165). -/
abbrev ReplyAccepted (s : State) : Prop := s.rxDone = true ∧ ∃ r, decodeReply s = .ok r

/-- `e` is the entry that `DequeueNext()` takes from `s`, out of the queue `q`, which keeps `rest` (R148). -/
abbrev NextEntry (s : State) (q : Queue) (e : Entry) (rest : List Entry) : Prop :=
  (q = .prio ∧ s.pq = e :: rest) ∨ (q = .norm ∧ s.pq = [] ∧ s.nq = e :: rest)

/-- The shapes of what phase C leaves of `s`, one for each thing a state action does (R162 to R172). -/
inductive Acted (now : U32) (s : State) : State → Prop where
  | waited (hq : s.qstate ≠ 2) : Acted now s s
  | dispatched (q : Queue) (e : Entry) (rest : List Entry) (hq : s.qstate = 0)
      (hspacing : s.spacingArmed = false ∨ s.cfgSpacing.toNat ≤ (now - s.spacingStart).toNat)
      (hnext : NextEntry s q e rest) : Acted now s (startAttempt now (loadSlot e q (s.setQueue q rest)))
  | completed (r : FrameRecord) (hq : s.qstate = 1) (hrx : s.rxDone = true) (hr : decodeReply s = .ok r) :
      Acted now s (completeExchange now r.nak s)
  | reported (c : ErrCode) (hq : s.qstate = 1) (hno : ¬ ReplyAccepted s) : Acted now s (s.emit (.frameError s.slot.tag c))
  | timedOut (u : State) (hq : s.qstate = 1) (hno : ¬ ReplyAccepted s)
      (helapsed : s.timerDur.toNat ≤ (now - s.timerStart).toNat)
      (hu : u = s ∨ ∃ c, u = s.emit (.frameError s.slot.tag c)) :
      Acted now s { u.emit (.timeout s.slot.tag s.attempt) with qstate := qBreakSet }
  | drivenLow (hq : s.qstate = 2) : Acted now s (breakSetAction now s)
  | released (hq : s.qstate = 3) (helapsed : s.timerDur.toNat ≤ (now - s.timerStart).toNat) :
      Acted now s { s with lineBreak := false, timerStart := now, qstate := qRetry }
  | retried (hq : s.qstate = 4) (helapsed : s.timerDur.toNat ≤ (now - s.timerStart).toNat)
      (hbudget : (s.attempt + 1).toNat ≤ s.cfgMaxRetries.toNat) : Acted now s (startAttempt now (countAttempt s))
  | exhausted (hq : s.qstate = 4) (helapsed : s.timerDur.toNat ≤ (now - s.timerStart).toNat)
      (hbudget : s.cfgMaxRetries.toNat < (s.attempt + 1).toNat) :
      Acted now s (failSession .retriesExhausted (countAttempt s))

theorem Acted.of_idleAction (now : U32) {s : State} (hq : s.qstate = 0) : Acted now s (idleAction now s) := by
  rcases idleAction_cases now s with h | ⟨hspacing, e, q, rest, hnext, h⟩ <;> rw [h]
  · exact .waited (by simp [hq])
  · exact .dispatched q e rest hq hspacing hnext

theorem Acted.of_sendingAction (now : U32) {s : State} (hq : s.qstate = 1) : Acted now s (sendingAction now s) := by
  rcases sendingAction_cases now s with ⟨hrx, r, hr, h⟩ | ⟨hno, h | ⟨c, h⟩⟩ <;> rw [h]
  · exact .completed r hq hrx hr
  · rcases timeoutCheck_cases now s with h | ⟨helapsed, h⟩ <;> rw [h]
    · exact .waited (by simp [hq])
    · exact .timedOut s hq hno helapsed (.inl rfl)
  · rcases timeoutCheck_cases now (s.emit (.frameError s.slot.tag c)) with h | ⟨helapsed, h⟩ <;> rw [h]
    · exact .reported c hq hno
    · exact .timedOut _ hq hno helapsed (.inr ⟨c, rfl⟩)

theorem Acted.of_breakResetAction (now : U32) {s : State} (hq : s.qstate = 3) :
    Acted now s (breakResetAction now s) := by
  rcases breakResetAction_cases now s with h | ⟨helapsed, h⟩ <;> rw [h]
  · exact .waited (by simp [hq])
  · exact .released hq helapsed

theorem Acted.of_retryAction (now : U32) {s : State} (hq : s.qstate = 4) : Acted now s (retryAction now s) := by
  rcases retryAction_cases now s with h | ⟨helapsed, ⟨hbudget, h⟩ | ⟨hbudget, h⟩⟩ <;> rw [h]
  · exact .waited (by simp [hq])
  · exact .exhausted hq helapsed hbudget
  · exact .retried hq helapsed hbudget

/-- Phase C leaves one of these shapes. -/
theorem stateAction_acted (now : U32) (s : State) : Acted now s (stateAction now s) := by
  unfold stateAction
  split_ifs with h0 h1 h2 h3 h4
  · exact .of_idleAction now h0
  · exact .of_sendingAction now h1
  · exact .drivenLow h2
  · exact .of_breakResetAction now h3
  · exact .of_retryAction now h4
  · exact .waited h2

/-- `s` with everything taken out that a state action may write, but for the framer reset of BREAK_SET (R162 to R172,
R207). -/
def State.outsideSequencer (s : State) : State :=
  { s.cleared with txAnswers := [], txDraws := 0, out := Out.empty }

theorem startAttempt_outsideSequencer (now : U32) (s : State) :
    (startAttempt now s).outsideSequencer = s.outsideSequencer := by
  rw [startAttempt_eq]
  split <;> rfl

theorem completeExchange_outsideSequencer (now : U32) (nak : Bool) (s : State) :
    (completeExchange now nak s).outsideSequencer = s.outsideSequencer := by
  obtain ⟨u, h, rfl | ⟨q, e, -, -, -, -, -, rfl⟩⟩ := completeExchange_cases now nak s <;> rw [h]
  · rfl
  · cases q <;> rfl

/-- Outside BREAK_SET phase C writes nothing but the sequencer, the session and the outputs. -/
theorem Acted.outsideSequencer {now : U32} {s t : State} (h : Acted now s t) (hne : s.qstate ≠ 2) :
    t.outsideSequencer = s.outsideSequencer := by
  cases h with
  | waited => rfl
  | dispatched q =>
    rw [startAttempt_outsideSequencer]
    cases q <;> rfl
  | completed => exact completeExchange_outsideSequencer ..
  | reported => rfl
  | timedOut u _ _ _ hu => rcases hu with rfl | ⟨c, rfl⟩ <;> rfl
  | drivenLow hq => exact absurd hq hne
  | released => rfl
  | retried => exact startAttempt_outsideSequencer ..
  | exhausted => rfl

theorem stateAction_outsideSequencer (now : U32) {s : State} (hne : s.qstate ≠ 2) :
    (stateAction now s).outsideSequencer = s.outsideSequencer := (stateAction_acted now s).outsideSequencer hne

/-- In every state phase C leaves all but the framer's registers, the sequencer, the session and the outputs. -/
theorem stateAction_outside (now : U32) (s : State) :
    framerReset (stateAction now s).outsideSequencer = framerReset s.outsideSequencer := by
  by_cases hq : s.qstate = 2
  · rw [stateAction_breakSet now hq]
    rfl
  · rw [stateAction_outsideSequencer now hq]

@[simp] theorem stateAction_par (now : U32) (s : State) : (stateAction now s).par = s.par :=
  (congrArg State.par (stateAction_outside now s) :)
@[simp] theorem stateAction_cfgSpacing (now : U32) (s : State) : (stateAction now s).cfgSpacing = s.cfgSpacing :=
  (congrArg State.cfgSpacing (stateAction_outside now s) :)
@[simp] theorem stateAction_cfgTimeout (now : U32) (s : State) : (stateAction now s).cfgTimeout = s.cfgTimeout :=
  (congrArg State.cfgTimeout (stateAction_outside now s) :)
@[simp] theorem stateAction_cfgBreak (now : U32) (s : State) : (stateAction now s).cfgBreak = s.cfgBreak :=
  (congrArg State.cfgBreak (stateAction_outside now s) :)
@[simp] theorem stateAction_cfgMaxRetries (now : U32) (s : State) :
    (stateAction now s).cfgMaxRetries = s.cfgMaxRetries :=
  (congrArg State.cfgMaxRetries (stateAction_outside now s) :)
@[simp] theorem stateAction_cfgCapP (now : U32) (s : State) : (stateAction now s).cfgCapP = s.cfgCapP :=
  (congrArg State.cfgCapP (stateAction_outside now s) :)
@[simp] theorem stateAction_cfgCapN (now : U32) (s : State) : (stateAction now s).cfgCapN = s.cfgCapN :=
  (congrArg State.cfgCapN (stateAction_outside now s) :)
@[simp] theorem stateAction_rxDone (now : U32) (s : State) : (stateAction now s).rxDone = s.rxDone :=
  (congrArg State.rxDone (stateAction_outside now s) :)
@[simp] theorem stateAction_txDone (now : U32) (s : State) : (stateAction now s).txDone = s.txDone :=
  (congrArg State.txDone (stateAction_outside now s) :)
@[simp] theorem stateAction_rxFrame (now : U32) (s : State) : (stateAction now s).rxFrame = s.rxFrame :=
  (congrArg State.rxFrame (stateAction_outside now s) :)
@[simp] theorem stateAction_txFrame (now : U32) (s : State) : (stateAction now s).txFrame = s.txFrame :=
  (congrArg State.txFrame (stateAction_outside now s) :)
@[simp] theorem stateAction_inbox (now : U32) (s : State) : (stateAction now s).inbox = s.inbox :=
  (congrArg State.inbox (stateAction_outside now s) :)
@[simp] theorem stateAction_keeps_rxin (now : U32) (s : State) : (stateAction now s).rxin = s.rxin :=
  (congrArg State.rxin (stateAction_outside now s) :)
@[simp] theorem framed_inbox (s : State) : (framed s).inbox = s.inbox := (congrArg State.inbox (framed_outsideFramer s) :)
@[simp] theorem framed_lineBreak (s : State) : (framed s).lineBreak = s.lineBreak :=
  (congrArg State.lineBreak (framed_outsideFramer s) :)

/-- What no POLL writes: the parameters, the configuration and what is still to come (R160). -/
theorem poll_keeps {now : U32} {s t : State} (h : exec (.poll now) s = .next t) :
    t.par = s.par ∧ t.cfgSpacing = s.cfgSpacing ∧ t.cfgTimeout = s.cfgTimeout ∧ t.cfgBreak = s.cfgBreak ∧
      t.cfgMaxRetries = s.cfgMaxRetries ∧ t.cfgCapP = s.cfgCapP ∧ t.cfgCapN = s.cfgCapN ∧ t.inbox = s.inbox := by
  obtain ⟨-, rfl⟩ := exec_poll_next.1 h
  simp

/-- Settles O42: in a state without reserved codes POLL completes with `OK`, and neither the framer nor a state action
writes a parameter or a configuration register. -/
theorem pollReturnsOk : Obligations.PollReturnsOk := fun _ now hl =>
  have h := exec_poll_of_legal hl now
  ⟨_, h, rfl, poll_keeps h⟩

/-- `s` with the framer, its outputs and `RXIN` of `u`. -/
def State.withFramerOf (s u : State) : State :=
  { s with
    frPhase := u.frPhase, frBuf := u.frBuf, frCount := u.frCount, frDeclLen := u.frDeclLen
    rxDone := u.rxDone, txDone := u.txDone, rxFrame := u.rxFrame, txFrame := u.txFrame, rxin := u.rxin }

theorem framed_eq_withFramerOf (s : State) : framed s = s.withFramerOf (framed s) :=
  (congrArg (State.withFramerOf · (framed s)) (framed_outsideFramer s) :)

/-- Settles O41: what is outside the framer is the same after phases A and B. -/
theorem framingTouchesOnlyFramer : Obligations.FramingTouchesOnlyFramer := framed_eq_withFramerOf

theorem Executed.par {i : Instr} {s t : State} (h : Executed s i t) : t.par = s.par := by
  cases h with
  | polled now => simp
  | enqueued i q => cases q <;> rfl
  | capacitySet q => cases q <;> rfl
  | sessionCleared => rfl
  | timingSet => rfl
  | retriesSet => rfl
  | answered => rfl
  | arrived => rfl

/-- Settles O51: no shape of what an instruction leaves has other parameters, and a step runs one or receives bytes. -/
theorem parametersFixed : Obligations.ParametersFixed := by
  intro s t h
  rcases step_cases h with ⟨-, rfl⟩ | ⟨input, rest, -, ⟨i, hi⟩ | rfl | ⟨bytes, rfl⟩⟩
  · rfl
  · exact hi.par
  · rfl
  · rfl

/-- Settles O49: of the shapes of what an instruction leaves, only the writes of these three operations differ from the
state they found in a configuration register. -/
theorem configurationWriters : Obligations.ConfigurationWriters := by
  intro s t i h
  cases executed_of_exec h with
  | polled now => simp
  | timingSet a b c => exact ⟨fun _ => ⟨a, b, c, rfl⟩, fun h => absurd rfl h, fun h => h.elim (absurd rfl) (absurd rfl)⟩
  | retriesSet n => simp [State.answer]
  | capacitySet q n => cases q <;> simp [State.answer, State.setCapacity]
  | enqueued i q => cases q <;> simp [State.answer]
  | sessionCleared => simp [State.done, State.cleared]
  | answered => simp [State.answer]
  | arrived => simp

/-- Settles O20: of the shapes of what an instruction leaves, only those of POLL and CLEAR have another slot, and only
an enqueue another queue, with the new entry behind. -/
theorem hostOperationsKeepCommands : Obligations.HostOperationsKeepCommands := by
  intro s t i hpoll hclear h
  cases executed_of_exec h with
  | polled now => exact absurd rfl (hpoll now)
  | sessionCleared => exact absurd rfl hclear
  | enqueued i q e =>
    cases q
    · exact ⟨rfl, List.prefix_append .., List.prefix_refl _⟩
    · exact ⟨rfl, List.prefix_refl _, List.prefix_append ..⟩
  | capacitySet q => cases q <;> exact ⟨rfl, List.prefix_refl _, List.prefix_refl _⟩
  | timingSet => exact ⟨rfl, List.prefix_refl _, List.prefix_refl _⟩
  | retriesSet => exact ⟨rfl, List.prefix_refl _, List.prefix_refl _⟩
  | answered => exact ⟨rfl, List.prefix_refl _, List.prefix_refl _⟩
  | arrived => exact ⟨rfl, List.prefix_refl _, List.prefix_refl _⟩

/-- A request reads no output port of the step before it (R204). -/
theorem exec_begin {i : Instr} (hi : i.isRequest = true) (s : State) : exec i s.begin = exec i s := by
  cases i with
  | frameEchoTx => cases hi
  | frameReplyRx => cases hi
  | frameNak => cases hi
  | frameAck => cases hi
  | framePlain => cases hi
  | _ => rfl

/-- Settles O47: the only shape of what a read leaves is its answer, and the answer does not depend on the last one. -/
theorem readsHaveNoSideEffect : Obligations.ReadsHaveNoSideEffect := by
  intro s t i hi h
  have hreq : i.isRequest = true := by
    rcases hi with ⟨r, rfl⟩ | ⟨d, rfl⟩ | rfl | rfl | ⟨d, k, x, y, rfl⟩ | ⟨b, k, x, m, rfl⟩ <;> rfl
  have hsame : ∃ r, t = s.answer r := by
    rcases hi with ⟨r, rfl⟩ | ⟨d, rfl⟩ | rfl | rfl | ⟨d, k, x, y, rfl⟩ | ⟨b, k, x, m, rfl⟩ <;>
      cases executed_of_exec h with
      | answered i r => exact ⟨r, rfl⟩
      | enqueued i q e he => simp at he
      | arrived i hf => cases hf
  obtain ⟨r, rfl⟩ := hsame
  refine ⟨rfl, ?_⟩
  rw [← exec_begin hreq (s.answer r), ← h]
  exact exec_begin hreq s

/-- Settles O48: only a quiet operation's answer can be a code, and it leaves all but the outputs as it was. -/
theorem raisesArePrecise : Obligations.RaisesArePrecise := by
  intro s t i hi h
  cases executed_of_exec h with
  | answered i r hq => exact ⟨r, rfl, fun e he => ⟨rfl, rfl, rfl, hq.2.1⟩⟩
  | arrived i hf => simp [hf] at hi
  | polled => exact ⟨.ok .none, rfl, nofun⟩
  | sessionCleared => exact ⟨.ok .none, rfl, nofun⟩
  | enqueued => exact ⟨.ok .none, rfl, nofun⟩
  | timingSet => exact ⟨.ok .none, rfl, nofun⟩
  | retriesSet => exact ⟨.ok .none, rfl, nofun⟩
  | capacitySet => exact ⟨.ok .none, rfl, nofun⟩

/-- What a POLL leaves is what phase C makes of the framed state, with its result. -/
theorem poll_acted {now : U32} {s t : State} (h : exec (.poll now) s = .next t) :
    ∃ u, Acted now (framed s).begin u ∧ t = u.setResult (.ok .none) := by
  obtain ⟨-, rfl⟩ := exec_poll_next.1 h
  exact ⟨_, stateAction_acted now _, rfl⟩

/-- The events of an attempt (R164): its transmission, or the fatal error and the clear it causes. -/
theorem startAttempt_events (now : U32) (s : State) :
    (startAttempt now s).out.events = s.out.events ++ [.transmitted s.slot.tag s.attempt] ∨
    (startAttempt now s).out.events =
      s.out.events ++ [.failed s.slot.tag .txFail s.attempt, .cleared FailReason.txFail.toClear] := by
  cases hok : s.nextTxOk with
  | true =>
    rw [startAttempt_of_ok now hok]
    exact .inl rfl
  | false =>
    rw [startAttempt_of_fail now hok]
    exact .inr (List.append_assoc ..)

theorem completeExchange_events (now : U32) (nak : Bool) (s : State) :
    (completeExchange now nak s).out.events =
      s.out.events ++ [.complete s.slot.tag nak s.attempt s.slot.txFrame s.rxFrame] := by
  obtain ⟨u, h, rfl | ⟨q, e, -, -, -, -, -, rfl⟩⟩ := completeExchange_cases now nak s <;> rw [h]
  · rfl
  · cases q <;> rfl

/-- The seven lists of events of a state action (R205). -/
theorem Acted.events {now : U32} {s t : State} (h : Acted now s.begin t) :
    t.out.events = [] ∨ (∃ g a, t.out.events = [.transmitted g a]) ∨
      (∃ g k a x y, t.out.events = [.complete g k a x y]) ∨ (∃ g c, t.out.events = [.frameError g c]) ∨
      (∃ g a, t.out.events = [.timeout g a]) ∨ (∃ g c a, t.out.events = [.frameError g c, .timeout g a]) ∨
      (∃ g r a, t.out.events = [.failed g r a, .cleared r.toClear]) := by
  have attempt (u : State) (hu : u.out.events = []) :
      (∃ g a, (startAttempt now u).out.events = [.transmitted g a]) ∨
        ∃ g r a, (startAttempt now u).out.events = [.failed g r a, .cleared r.toClear] := by
    rcases startAttempt_events now u with h | h <;> rw [h, hu]
    · exact .inl ⟨_, _, rfl⟩
    · exact .inr ⟨_, _, _, rfl⟩
  cases h with
  | waited => exact .inl rfl
  | dispatched q e rest =>
    rcases attempt (loadSlot e q (s.begin.setQueue q rest)) (by cases q <;> rfl) with h | h
    · exact .inr (.inl h)
    · exact .inr (.inr (.inr (.inr (.inr (.inr h)))))
  | completed r => exact .inr (.inr (.inl ⟨_, _, _, _, _, completeExchange_events now r.nak s.begin⟩))
  | reported c => exact .inr (.inr (.inr (.inl ⟨_, _, rfl⟩)))
  | timedOut u _ _ _ hu =>
    rcases hu with rfl | ⟨c, rfl⟩
    · exact .inr (.inr (.inr (.inr (.inl ⟨_, _, rfl⟩))))
    · exact .inr (.inr (.inr (.inr (.inr (.inl ⟨_, _, _, rfl⟩)))))
  | drivenLow => exact .inl rfl
  | released => exact .inl rfl
  | retried =>
    rcases attempt (countAttempt s.begin) rfl with h | h
    · exact .inr (.inl h)
    · exact .inr (.inr (.inr (.inr (.inr (.inr h)))))
  | exhausted => exact .inr (.inr (.inr (.inr (.inr (.inr ⟨_, _, _, rfl⟩)))))

/-- Settles O43: of the shapes of what a request leaves only those of POLL and CLEAR have events. -/
theorem eventListShapes : Obligations.EventListShapes := by
  intro s t i hi h
  cases executed_of_exec h with
  | polled now => exact .inl ⟨⟨now, rfl⟩, (stateAction_acted now (framed s).begin).events⟩
  | sessionCleared => exact .inr (.inl ⟨rfl, rfl⟩)
  | enqueued i q e hi =>
    obtain ⟨c, l, g, rfl | rfl⟩ := hi
    · exact .inr (.inr ⟨nofun, nofun, rfl⟩)
    · exact .inr (.inr ⟨nofun, nofun, rfl⟩)
  | timingSet => exact .inr (.inr ⟨nofun, nofun, rfl⟩)
  | retriesSet => exact .inr (.inr ⟨nofun, nofun, rfl⟩)
  | capacitySet => exact .inr (.inr ⟨nofun, nofun, rfl⟩)
  | answered i r hq => exact .inr (.inr ⟨hq.2.1, hq.2.2, rfl⟩)
  | arrived i hf => simp [hf] at hi

end Sys2Proof.Machine
end

section
/-! Changes of `QSTATE`, of the break output and of the session (R24, R180, R208). -/

namespace Sys2Proof.Machine

theorem framed_decodeReply (s : State) :
    decodeReply (framed s).begin = decodeFrame (framed s).rxFrame s.slot.cmd.head? none none := by
  simp [decodeReply]

/-- The answer that a dispatch draws is the one the POLL found next. -/
theorem loadSlot_nextTxOk (e : Entry) (q : Queue) (rest : List Entry) (s : State) :
    (loadSlot e q (s.setQueue q rest)).nextTxOk = s.nextTxOk := by
  cases q <;> rfl

theorem loadSlot_qstate (e : Entry) (q : Queue) (rest : List Entry) (s : State) :
    (loadSlot e q (s.setQueue q rest)).qstate = s.qstate := by
  cases q <;> rfl

theorem loadSlot_out (e : Entry) (q : Queue) (rest : List Entry) (s : State) :
    (loadSlot e q (s.setQueue q rest)).out = s.out := by
  cases q <;> rfl

/-- Settles O44: each shape of what phase C leaves is a row of the table, or leaves `QSTATE` as it was. -/
theorem transitionSummary : Obligations.TransitionSummary := by
  intro s t i h hne
  cases executed_of_exec h with
  | sessionCleared => exact .inl ⟨rfl, rfl, rfl⟩
  | enqueued i q => cases q <;> exact absurd rfl hne
  | capacitySet q => cases q <;> exact absurd rfl hne
  | timingSet => exact absurd rfl hne
  | retriesSet => exact absurd rfl hne
  | answered => exact absurd rfl hne
  | arrived => exact absurd rfl hne
  | polled now =>
    refine .inr ⟨now, rfl, ?_⟩
    have hrx : (stateAction now (framed s).begin).rxDone = (framed s).rxDone := by simp
    have hrxFrame : (stateAction now (framed s).begin).rxFrame = (framed s).rxFrame := by simp
    have hA := stateAction_acted now (framed s).begin
    simp only [setResult_qstate, setResult_rxDone, setResult_rxFrame, setResult_out, hrx, hrxFrame] at hne ⊢
    rw [← framed_qstate s] at hne ⊢
    rw [← framed_decodeReply, ← framed_timerDur s, ← framed_timerStart s, ← framed_attempt s, ← framed_slot s,
      ← framed_cfgMaxRetries s]
    generalize stateAction now (framed s).begin = u at hA hne
    cases hA with
    | waited => exact absurd rfl hne
    | dispatched q e rest hq hspacing hnext =>
      have hdraw := (loadSlot_nextTxOk e q rest (framed s).begin).trans (framed_nextTxOk s)
      cases hok : s.nextTxOk with
      | true =>
        rw [startAttempt_of_ok now (hdraw.trans hok)]
        refine .inl ⟨hq, rfl, ?_, rfl, by simpa using hspacing, e.tag,
          (congrArg (·.events ++ [.transmitted e.tag 1]) (loadSlot_out e q rest (framed s).begin) :)⟩
        rcases hnext with ⟨-, hp⟩ | ⟨-, -, hn⟩
        · exact .inl (by simpa using ne_of_eq_of_ne hp (List.cons_ne_nil e rest))
        · exact .inr (by simpa using ne_of_eq_of_ne hn (List.cons_ne_nil e rest))
      | false =>
        rw [startAttempt_of_fail now (hdraw.trans hok)] at hne
        exact absurd hq.symm hne
    | completed r hq hrx hr =>
      exact .inr (.inl ⟨hq, rfl, ⟨hrx, r, hr⟩, r.nak, _, _, completeExchange_events now r.nak (framed s).begin⟩)
    | reported => exact absurd rfl hne
    | timedOut u hq hno helapsed hu =>
      refine .inr (.inr (.inl ⟨hq, rfl, helapsed, hno, ?_⟩))
      rcases hu with rfl | ⟨c, rfl⟩
      · exact .inl rfl
      · exact .inr ⟨c, rfl⟩
    | drivenLow hq => exact .inr (.inr (.inr (.inl ⟨hq, rfl, rfl⟩)))
    | released hq helapsed => exact .inr (.inr (.inr (.inr (.inl ⟨hq, rfl, helapsed, rfl⟩))))
    | retried hq helapsed hbudget =>
      have hdraw : (countAttempt (framed s).begin).nextTxOk = s.nextTxOk := framed_nextTxOk s
      cases hok : s.nextTxOk with
      | true =>
        rw [startAttempt_of_ok now (hdraw.trans hok)]
        exact .inr (.inr (.inr (.inr (.inr (.inl ⟨hq, rfl, helapsed, hbudget, rfl, rfl⟩)))))
      | false =>
        rw [startAttempt_of_fail now (hdraw.trans hok)]
        exact .inr (.inr (.inr (.inr (.inr (.inr (.inl ⟨hq, rfl, helapsed, hbudget, rfl, rfl⟩))))))
    | exhausted hq helapsed hbudget =>
      exact .inr (.inr (.inr (.inr (.inr (.inr (.inr ⟨hq, rfl, helapsed, hbudget, rfl⟩))))))

/-- The queues, the slot, the sequencer and the spacing after a fatal error (R207). -/
theorem failSession_session (reason : FailReason) (s : State) :
    (failSession reason s).qstate = 0 ∧ (failSession reason s).pq = [] ∧ (failSession reason s).nq = [] ∧
      (failSession reason s).slot = InFlight.empty ∧ (failSession reason s).lineBreak = false ∧
      (failSession reason s).spacingArmed = false := ⟨rfl, rfl, rfl, rfl, rfl, rfl⟩

/-- An attempt that emits EV_FAILED is a fatal error. -/
theorem startAttempt_of_failed {now : U32} {s : State} {g : Option U16} {r : FailReason} {a : U16}
    (ho : s.out.events = []) (h : .failed g r a ∈ (startAttempt now s).out.events) :
    startAttempt now s = failSession .txFail (presented s) := by
  cases hok : s.nextTxOk with
  | true =>
    rw [startAttempt_of_ok now hok, attemptSent_out] at h
    simp [presented, ho] at h
  | false => exact startAttempt_of_fail now hok

/-- The one thing phase C does when it emits EV_FAILED is the fatal error (R208). -/
theorem Acted.of_failed {now : U32} {s t : State} {g : Option U16} {r : FailReason} {a : U16} (h : Acted now s.begin t)
    (hf : .failed g r a ∈ t.out.events) : ∃ u reason, u.out.events = [] ∧ t = failSession reason u := by
  cases h with
  | waited => cases hf
  | dispatched q e rest =>
    have ho : (loadSlot e q (s.begin.setQueue q rest)).out.events = [] := by rw [loadSlot_out]; rfl
    exact ⟨presented _, .txFail, ho, startAttempt_of_failed ho hf⟩
  | completed r =>
    rw [completeExchange_events] at hf
    simp at hf
  | reported => simp at hf
  | timedOut u _ _ _ hu => rcases hu with rfl | ⟨c, rfl⟩ <;> simp at hf
  | drivenLow => cases hf
  | released => cases hf
  | retried => exact ⟨presented _, .txFail, rfl, startAttempt_of_failed rfl hf⟩
  | exhausted => exact ⟨_, .retriesExhausted, rfl, rfl⟩

/-- Settles O45: EV_FAILED comes only from the fatal error, which emits EV_CLEARED with its reason and clears the
session. -/
theorem fatalErrorClearsSession : Obligations.FatalErrorClearsSession := by
  intro s t now g r a h hf
  obtain ⟨u, hA, rfl⟩ := poll_acted h
  obtain ⟨v, reason, hv, rfl⟩ := hA.of_failed hf
  have hev : (failSession reason v).out.events = [.failed v.slot.tag reason v.attempt, .cleared reason.toClear] := by
    rw [failSession_eq, hv]
    rfl
  rw [setResult_out, hev] at hf
  simp only [List.mem_cons, Event.failed.injEq, reduceCtorEq, List.not_mem_nil, or_false] at hf
  obtain ⟨rfl, rfl, rfl⟩ := hf
  exact ⟨hev, failSession_session r v⟩

/-- A state action that changes the break output is BREAK_SET, which drives the bus low, or the release of BREAK_RESET,
or a fatal error (R24). -/
theorem Acted.lineBreak {now : U32} {s t : State} (h : Acted now s t) :
    t.lineBreak = s.lineBreak ∨ (s.qstate = 2 ∧ t.lineBreak = true) ∨
      (s.qstate = 3 ∧ t.qstate = 4 ∧ t.lineBreak = false) ∨ (t.lineBreak = false ∧ ∃ r, .cleared r ∈ t.out.events) := by
  have attempt (u : State) : (startAttempt now u).lineBreak = u.lineBreak ∨
      ((startAttempt now u).lineBreak = false ∧ ∃ r, .cleared r ∈ (startAttempt now u).out.events) := by
    cases hok : u.nextTxOk with
    | true => exact .inl (by rw [startAttempt_of_ok now hok]; rfl)
    | false =>
      rw [startAttempt_of_fail now hok]
      exact .inr ⟨rfl, .txFail, by simp [failSession_eq, FailReason.toClear]⟩
  cases h with
  | waited => exact .inl rfl
  | dispatched q e rest =>
    rcases attempt (loadSlot e q (s.setQueue q rest)) with h | h
    · exact .inl (h.trans (by cases q <;> rfl))
    · exact .inr (.inr (.inr h))
  | completed r =>
    obtain ⟨u, h, rfl | ⟨q, e, -, -, -, -, -, rfl⟩⟩ := completeExchange_cases now r.nak s <;> rw [h]
    · exact .inl rfl
    · cases q <;> exact .inl rfl
  | reported => exact .inl rfl
  | timedOut u _ _ _ hu => rcases hu with rfl | ⟨c, rfl⟩ <;> exact .inl rfl
  | drivenLow hq => exact .inr (.inl ⟨hq, rfl⟩)
  | released hq => exact .inr (.inr (.inl ⟨hq, rfl, rfl⟩))
  | retried =>
    rcases attempt (countAttempt s) with h | h
    · exact .inl h
    · exact .inr (.inr (.inr h))
  | exhausted => exact .inr (.inr (.inr ⟨rfl, .retriesExhausted, by simp [failSession_eq, FailReason.toClear]⟩))

/-- Settles O50: of the shapes of what an instruction leaves, only those of POLL and CLEAR have another break output,
and CLEAR emits EV_CLEARED. -/
theorem breakDriveWriters : Obligations.BreakDriveWriters := by
  intro s t i h
  have same (hb : t.lineBreak = s.lineBreak) :
      (s.lineBreak = false → t.lineBreak = true → s.qstate = 2 ∧ ∃ now, i = .poll now) ∧
        (s.lineBreak = true → t.lineBreak = false →
          (s.qstate = 3 ∧ t.qstate = 4 ∧ ∃ now, i = .poll now) ∨ ∃ r, .cleared r ∈ t.out.events) := by
    rw [hb]
    exact ⟨fun h0 h1 => absurd (h0.symm.trans h1) nofun, fun h1 h0 => absurd (h1.symm.trans h0) nofun⟩
  cases executed_of_exec h with
  | polled now =>
    rcases (stateAction_acted now (framed s).begin).lineBreak with h | ⟨hq, h⟩ | ⟨hq, hq', h⟩ | ⟨h, hr⟩
    · exact same (h.trans (framed_lineBreak s))
    · exact ⟨fun _ _ => ⟨(framed_qstate s).symm.trans hq, now, rfl⟩, fun _ h0 => absurd (h.symm.trans h0) nofun⟩
    · exact ⟨fun _ h1 => absurd (h.symm.trans h1) nofun,
        fun _ _ => .inl ⟨(framed_qstate s).symm.trans hq, hq', now, rfl⟩⟩
    · exact ⟨fun _ h1 => absurd (h.symm.trans h1) nofun, fun _ _ => .inr hr⟩
  | sessionCleared => exact ⟨fun _ h1 => absurd h1 nofun, fun _ _ => .inr ⟨.host, List.mem_singleton.2 rfl⟩⟩
  | enqueued i q => cases q <;> exact same rfl
  | capacitySet q => cases q <;> exact same rfl
  | timingSet => exact same rfl
  | retriesSet => exact same rfl
  | answered => exact same rfl
  | arrived => exact same rfl

end Sys2Proof.Machine
end

section
/-! Requests and frames as bytes: decoding what was encoded (R74, R75), and the classes of a frame (R78). -/

namespace Sys2Proof

theorem flagByte_and_FC (b0 b1 : Bool) : flagByte b0 b1 false &&& 0xFC = 0 := by
  revert b0 b1; decide

theorem flagByte_and_F8 (b0 b1 b2 : Bool) : flagByte b0 b1 b2 &&& 0xF8 = 0 := by
  revert b0 b1 b2; decide

theorem flagByte_getLsbD (b0 b1 b2 : Bool) :
    (flagByte b0 b1 b2).getLsbD 0 = b0 ∧ (flagByte b0 b1 b2).getLsbD 1 = b1 ∧ (flagByte b0 b1 b2).getLsbD 2 = b2 := by
  revert b0 b1 b2; decide

/-- The bytes of an absent operand do not matter (R75). -/
theorem presentIf_isSome_getD {α : Type} (o : Option α) (d : α) : presentIf o.isSome (o.getD d) = o := by
  cases o <;> rfl

theorem toNat_ofNat_length {w : Nat} {s : Bytes} (h : s.length < 2 ^ w) : (BitVec.ofNat w s.length).toNat = s.length :=
  (BitVec.toNat_ofNat ..).trans (Nat.mod_eq_of_lt h)

theorem decodeEnqueue_encodeEnqueue {c : Bytes} (hc : c.length ≤ 255) (loop : Bool) (tag : Option U16) :
    decodeEnqueue (encodeEnqueue c loop tag) = .ok (c, loop, tag) := by
  have hn : (BitVec.ofNat 8 c.length).toNat = c.length := toNat_ofNat_length (by omega)
  obtain ⟨h0, h1, -⟩ := flagByte_getLsbD loop tag.isSome false
  simp only [encodeEnqueue, be16, List.cons_append, List.nil_append, decodeEnqueue]
  rw [ofBe16_be16, if_neg (not_not.2 (flagByte_and_FC ..)), if_neg (not_not.2 hn.symm), h0, h1, presentIf_isSome_getD]

theorem decodeEncode_of_fits {payload : Bytes} (hp : payload.length ≤ 255) (dir : Dir) (command : Byte)
    (index : Option Byte) :
    decodeEncode (flagByte index.isSome (dir == .rx) false :: command :: index.getD 0 ::
      BitVec.ofNat 8 payload.length :: payload) = .ok (.encodeOp dir command index payload) := by
  have hn : (BitVec.ofNat 8 payload.length).toNat = payload.length := toNat_ofNat_length (by omega)
  obtain ⟨h0, h1, -⟩ := flagByte_getLsbD index.isSome (dir == .rx) false
  rw [decodeEncode, if_neg (not_not.2 (flagByte_and_FC ..)), if_neg (not_not.2 hn.symm), h0, h1, presentIf_isSome_getD]
  cases dir <;> rfl

theorem decodeDecode_of_fits {bytes : Bytes} (hb : bytes.length ≤ 65535) (expCmd expIdx : Option Byte)
    (minLen : Option U16) :
    decodeDecode (flagByte expCmd.isSome expIdx.isSome minLen.isSome :: expCmd.getD 0 :: expIdx.getD 0 ::
      (be16 (minLen.getD 0) ++ be16 (BitVec.ofNat 16 bytes.length) ++ bytes)) =
      .ok (.decodeOp bytes expCmd expIdx minLen) := by
  have hn : (BitVec.ofNat 16 bytes.length).toNat = bytes.length := toNat_ofNat_length (by omega)
  obtain ⟨h0, h1, h2⟩ := flagByte_getLsbD expCmd.isSome expIdx.isSome minLen.isSome
  simp only [be16, List.cons_append, List.nil_append, decodeDecode]
  rw [ofBe16_be16, ofBe16_be16, if_neg (not_not.2 (flagByte_and_F8 ..)), if_neg (not_not.2 hn.symm), h0, h1, h2,
    presentIf_isSome_getD, presentIf_isSome_getD, presentIf_isSome_getD]

/-- Settles O2: every operand decoder reads back what the encoder writes, as long as the count fields hold the counts. -/
theorem requestRoundTrip : Obligations.RequestRoundTrip := by
  intro p i hwf hreq
  cases i with
  | enqn c loop tag =>
    show (decodeEnqueue (encodeEnqueue c loop tag)).map _ = _
    rw [decodeEnqueue_encodeEnqueue (of_decide_eq_true hwf)]
    rfl
  | enqp c loop tag =>
    show (decodeEnqueue (encodeEnqueue c loop tag)).map _ = _
    rw [decodeEnqueue_encodeEnqueue (of_decide_eq_true hwf)]
    rfl
  | clear => rfl
  | isIdle => rfl
  | pending => rfl
  | setTiming a b c =>
    show Decoded.ok (Instr.setTiming (ofBe32 ..) (ofBe32 ..) (ofBe32 ..)) = _
    simp only [ofBe32_be32]
  | setMaxRetries n => rfl
  | setCapacity q n =>
    cases q
    · exact congrArg (fun n => Decoded.ok (Instr.setCapacity .prio n)) (ofBe16_be16 n)
    · exact congrArg (fun n => Decoded.ok (Instr.setCapacity .norm n)) (ofBe16_be16 n)
  | readReg r => rfl
  | readFrame d => cases d <;> rfl
  | encodeOp dir command index payload => exact decodeEncode_of_fits (of_decide_eq_true hwf) dir command index
  | decodeOp bytes expCmd expIdx minLen => exact decodeDecode_of_fits (of_decide_eq_true hwf) expCmd expIdx minLen
  | poll now => exact Machine.decode_poll p now
  | reservedIllegalOp op rest => exact decodeRequest_of_unassignedOpcode rest hwf
  | frameEchoTx => cases hreq
  | frameReplyRx => cases hreq
  | frameNak => cases hreq
  | frameAck => cases hreq
  | framePlain => cases hreq

theorem decodeEnqueue_ok_fits {bs : Bytes} {x : Bytes × Bool × Option U16} (h : decodeEnqueue bs = .ok x) :
    x.1.length ≤ 255 := by
  unfold decodeEnqueue at h
  split at h
  case h_1 flags hi lo n c =>
    split_ifs at h with hflags hn
    cases h
    have := n.isLt
    show c.length ≤ 255
    omega
  case h_2 => cases h

/-- An instruction of the host request format whose operands fit their count fields. -/
abbrev Instr.IsWellFormedRequest (i : Instr) : Prop := WellFormed i = true ∧ i.isRequest = true

theorem decodeBare_wellFormed {i j : Instr} {bs : Bytes} (hi : i.IsWellFormedRequest) (h : decodeBare i bs = .ok j) :
    j.IsWellFormedRequest := by
  unfold decodeBare at h
  split at h
  · cases h; exact hi
  · cases h

theorem decodeSetTiming_wellFormed {bs : Bytes} {i : Instr} (h : decodeSetTiming bs = .ok i) :
    i.IsWellFormedRequest := by
  unfold decodeSetTiming at h
  split at h
  · cases h; exact ⟨rfl, rfl⟩
  · cases h

theorem decodeOneByte_wellFormed {f : Byte → Instr} {bs : Bytes} {i : Instr} (hf : ∀ b, (f b).IsWellFormedRequest)
    (h : decodeOneByte f bs = .ok i) : i.IsWellFormedRequest := by
  unfold decodeOneByte at h
  split at h
  · cases h; exact hf _
  · cases h

theorem decodeSetCapacity_wellFormed {bs : Bytes} {i : Instr} (h : decodeSetCapacity bs = .ok i) :
    i.IsWellFormedRequest := by
  unfold decodeSetCapacity at h
  split at h
  · split at h
    · cases h; exact ⟨rfl, rfl⟩
    · cases h
  · cases h

theorem decodeReadFrame_wellFormed {bs : Bytes} {i : Instr} (h : decodeReadFrame bs = .ok i) :
    i.IsWellFormedRequest := by
  unfold decodeReadFrame at h
  split at h
  · split at h
    · cases h; exact ⟨rfl, rfl⟩
    · cases h
  · cases h

theorem decodeEncode_wellFormed {bs : Bytes} {i : Instr} (h : decodeEncode bs = .ok i) : i.IsWellFormedRequest := by
  unfold decodeEncode at h
  split at h
  case h_1 flags command index n payload =>
    split at h
    · cases h
    · split at h
      · cases h
      next hn =>
        cases h
        have := n.isLt
        exact ⟨decide_eq_true (show payload.length ≤ 255 by omega), rfl⟩
  case h_2 => cases h

theorem decodeDecode_wellFormed {bs : Bytes} {i : Instr} (h : decodeDecode bs = .ok i) : i.IsWellFormedRequest := by
  unfold decodeDecode at h
  split at h
  case h_1 flags cmd idx mhi mlo nhi nlo bytes =>
    split_ifs at h with hflags hn
    cases h
    have := (ofBe16 nhi nlo).isLt
    exact ⟨decide_eq_true (show bytes.length ≤ 65535 by omega), rfl⟩
  case h_2 => cases h

theorem decodePoll_wellFormed {bs : Bytes} {i : Instr} (h : decodePoll bs = .ok i) : i.IsWellFormedRequest := by
  unfold decodePoll at h
  split at h
  · cases h; exact ⟨rfl, rfl⟩
  · cases h

theorem Decoded.eq_of_map_eq_ok {α β : Type} {f : α → β} {d : Decoded α} {b : β} (h : d.map f = .ok b) :
    ∃ a, d = .ok a ∧ f a = b := by
  cases d with
  | ok a => cases h; exact ⟨a, rfl, rfl⟩
  | reject r => cases h

/-- Settles O3: each operand decoder gives instructions whose counts were read from their count fields. -/
theorem decodedRequestWellFormed : Obligations.DecodedRequestWellFormed := by
  intro bs i h
  cases bs with
  | nil => cases h
  | cons op operands =>
    cases hop : unassignedOpcode op with
    | true =>
      rw [decodeRequest_of_unassignedOpcode operands hop] at h
      cases h
      exact ⟨hop, rfl⟩
    | false =>
      rcases eq_of_assignedOpcode hop with
        rfl | rfl | rfl | rfl | rfl | rfl | rfl | rfl | rfl | rfl | rfl | rfl | rfl
      · obtain ⟨x, hx, rfl⟩ := Decoded.eq_of_map_eq_ok h
        exact ⟨decide_eq_true (decodeEnqueue_ok_fits hx), rfl⟩
      · obtain ⟨x, hx, rfl⟩ := Decoded.eq_of_map_eq_ok h
        exact ⟨decide_eq_true (decodeEnqueue_ok_fits hx), rfl⟩
      · exact decodeBare_wellFormed (i := .clear) ⟨rfl, rfl⟩ h
      · exact decodeBare_wellFormed (i := .isIdle) ⟨rfl, rfl⟩ h
      · exact decodeBare_wellFormed (i := .pending) ⟨rfl, rfl⟩ h
      · exact decodeSetTiming_wellFormed h
      · exact decodeOneByte_wellFormed (f := .setMaxRetries) (fun _ => ⟨rfl, rfl⟩) h
      · exact decodeSetCapacity_wellFormed h
      · exact decodeOneByte_wellFormed (f := .readReg) (fun _ => ⟨rfl, rfl⟩) h
      · exact decodeReadFrame_wellFormed h
      · exact decodeEncode_wellFormed h
      · exact decodeDecode_wellFormed h
      · exact decodePoll_wellFormed h

/-- Settles O1: the decoders run on these bytes. -/
theorem sampleWordsDecode : Obligations.SampleWordsDecode := by
  refine ⟨?_, ?_, ?_, ?_, ?_, ?_, ?_, ?_, ?_⟩ <;> decide

/-! The classes of a wire frame (R70, R78). -/

/-- The headers differ, so a header gives back its direction (R5, R70). -/
theorem dirOfHeader_headerOf {p : Params} (hp : p.Ok) (d : Dir) : dirOfHeader p (headerOf p d) = some d := by
  cases d with
  | tx => exact if_pos rfl
  | rx => exact (if_neg hp.1.symm).trans (if_pos rfl)

theorem byteAt_append_length (s : Bytes) (b : Byte) : byteAt (s ++ [b]) s.length = b := by
  simp [byteAt]

/-- What a frame holds after its checksum is taken off. -/
theorem encodeFrame_take (h : Byte) (c : Bytes) :
    (encodeFrame h c).take ((encodeFrame h c).length - 1) = frameHead h c := by
  simp [encodeFrame]

theorem byteAt_encodeFrame_last (h : Byte) (c : Bytes) :
    byteAt (encodeFrame h c) ((encodeFrame h c).length - 1) = xorFold (frameHead h c) := by
  have hlen : (encodeFrame h c).length - 1 = (frameHead h c).length := by simp [encodeFrame]
  rw [hlen]
  exact byteAt_append_length ..

theorem lengthByte_toNat {c : Bytes} (hc : c.length ≤ 254) : (lengthByte c).toNat = c.length + 1 :=
  (BitVec.toNat_ofNat ..).trans (Nat.mod_eq_of_lt (by omega))

/-- An encoded frame has the layout of R70. -/
theorem wellFormedFrame_encodeFrame (h : Byte) {c : Bytes} (hpos : 1 ≤ c.length) (hc : c.length ≤ 254) :
    wellFormedFrame (encodeFrame h c) = true := by
  have hlen := encodeFrame_length h c
  have hl : (byteAt (encodeFrame h c) 1).toNat = (encodeFrame h c).length - 2 := by
    rw [hlen]
    exact lengthByte_toNat hc
  have hx := (byteAt_encodeFrame_last h c).trans (congrArg xorFold (encodeFrame_take h c)).symm
  simp only [wellFormedFrame, Bool.and_eq_true, decide_eq_true_eq, beq_iff_eq]
  exact ⟨⟨by omega, hl⟩, hx⟩

/-- The row that the command byte `c` gives a frame (R78). -/
def rowOfCommand (d : Dir) (c : Byte) (data : Bytes) : Instr :=
  if isNakByte c then .frameNak d data
  else if isAckByte c then .frameAck d (c.setWidth 7) data
  else .framePlain d (c.setWidth 7) data

theorem commandRow_encodeFrame {p : Params} {h : Byte} {d : Dir} (hd : dirOfHeader p h = some d) (c : Byte) {data : Bytes}
    (hfit : data.length ≤ 253) : commandRow p (encodeFrame h (c :: data)) = some (rowOfCommand d c data) := by
  have hdata : ((encodeFrame h (c :: data)).take ((encodeFrame h (c :: data)).length - 1)).drop 3 = data := by
    rw [encodeFrame_take]
    rfl
  have hcmd : byteAt (encodeFrame h (c :: data)) 2 = c := rfl
  have hhead : byteAt (encodeFrame h (c :: data)) 0 = h := rfl
  rw [commandRow, if_pos (wellFormedFrame_encodeFrame h (by simp) (by simp; omega)), hdata, hcmd, hhead, hd]
  rfl

theorem rowOfCommand_ack (d : Dir) (cmd : BitVec 7) (data : Bytes) :
    rowOfCommand d (ackCommand cmd) data = .frameAck d cmd data := by
  have h : ∀ cmd : BitVec 7, isNakByte (ackCommand cmd) = false ∧ isAckByte (ackCommand cmd) = true ∧
      (ackCommand cmd).setWidth 7 = cmd := by decide
  obtain ⟨hn, ha, hw⟩ := h cmd
  simp [rowOfCommand, hn, ha, hw]

theorem rowOfCommand_plain (d : Dir) {cmd : BitVec 7} (hcmd : cmd ≠ 0x7F) (data : Bytes) :
    rowOfCommand d (cmd.setWidth 8) data = .framePlain d cmd data := by
  have h : ∀ cmd : BitVec 7, cmd ≠ 0x7F → isNakByte (cmd.setWidth 8) = false ∧ isAckByte (cmd.setWidth 8) = false ∧
      (cmd.setWidth 8).setWidth 7 = cmd := by decide
  obtain ⟨hn, ha, hw⟩ := h cmd hcmd
  simp [rowOfCommand, hn, ha, hw]

/-- The row that a header of direction `d` gives a frame (R78). -/
def rowOfHeader (d : Dir) (body : Bytes) : Instr :=
  match d with
  | .tx => .frameEchoTx body
  | .rx => .frameReplyRx body

theorem headerRow_of_complete {p : Params} (hp : p.Ok) (d : Dir) {body : Bytes} (hb : completeBody body = true) :
    headerRow p (headerOf p d :: body) = some (rowOfHeader d body) := by
  rw [headerRow, if_pos hb, dirOfHeader_headerOf hp]
  cases d <;> rfl

/-- Settles O4: the two header rows are their own framer class, the other three their own codec class. -/
theorem wireFrameRoundTrip : Obligations.WireFrameRoundTrip := by
  intro p i hp hwf hreq
  have hdir := dirOfHeader_headerOf hp
  cases i with
  | frameEchoTx body => exact .inl (headerRow_of_complete hp .tx hwf)
  | frameReplyRx body => exact .inl (headerRow_of_complete hp .rx hwf)
  | frameNak dir data => exact .inr (commandRow_encodeFrame (hdir dir) nakCmd (of_decide_eq_true hwf))
  | frameAck dir cmd data =>
    exact .inr ((commandRow_encodeFrame (hdir dir) _ (of_decide_eq_true hwf)).trans
      (congrArg some (rowOfCommand_ack dir cmd data)))
  | framePlain dir cmd data =>
    obtain ⟨hcmd, hfit⟩ := Bool.and_eq_true_iff.1 hwf
    exact .inr ((commandRow_encodeFrame (hdir dir) _ (of_decide_eq_true hfit)).trans
      (congrArg some (rowOfCommand_plain dir (bne_iff_ne.1 hcmd) data)))
  | enqn => cases hreq
  | enqp => cases hreq
  | clear => cases hreq
  | isIdle => cases hreq
  | pending => cases hreq
  | setTiming => cases hreq
  | setMaxRetries => cases hreq
  | setCapacity => cases hreq
  | readReg => cases hreq
  | readFrame => cases hreq
  | encodeOp => cases hreq
  | decodeOp => cases hreq
  | poll => cases hreq
  | reservedIllegalOp => cases hreq

theorem isAckByte_iff (c : Byte) : isAckByte c = c.getLsbD 7 := by
  revert c; decide

/-- Settles O5: bytes with the right length byte and checksum are an encoded frame, and the decoders apply the tests of
R78 to it in an order that shows in no class. -/
theorem frameClassTests : Obligations.FrameClassTests := by
  intro p h l c x data hp hl hx s
  have hfit : data.length ≤ 253 := by have := l.isLt; omega
  have hlb : lengthByte (c :: data) = l := by
    apply BitVec.eq_of_toNat_eq
    rw [lengthByte_toNat (by simp; omega), hl]
    rfl
  have hs : s = encodeFrame h (c :: data) := by
    rw [encodeFrame_eq, frameHead, hlb, hx]
    rfl
  have hbody : completeBody s.tail = true := by simp [s, completeBody, hl]
  have hrow (d : Dir) (hd : headerOf p d = h) : commandRow p s = some (rowOfCommand d c data) :=
    hs ▸ commandRow_encodeFrame (hd ▸ dirOfHeader_headerOf hp d) c hfit
  refine ⟨fun hh => ?_, fun hh => ?_, fun d hd hc => ?_, fun d hd hc => ?_, fun d hd hc hne => ?_⟩
  · subst hh
    exact headerRow_of_complete hp .tx hbody
  · subst hh
    exact headerRow_of_complete hp .rx hbody
  · rw [hrow d hd, hc]
    rfl
  · have hn : isNakByte c = false := by
      rw [isNakByte, beq_eq_false_iff_ne]
      rintro rfl
      cases hc
    rw [hrow d hd, rowOfCommand, hn, isAckByte_iff, hc]
    rfl
  · have hn : isNakByte c = false := beq_eq_false_iff_ne.2 hne
    rw [hrow d hd, rowOfCommand, hn, isAckByte_iff, hc]
    rfl

end Sys2Proof
end

section
/-! The invariant (R34): reset meets it, and every step keeps it. -/

namespace Sys2Proof.Machine

/-! The framer's part (R34 items 6 to 9). -/

/-- The part of the invariant that speaks of the framer. -/
structure State.FramerLegal (s : State) : Prop where
  phase : s.frPhase.toNat ≤ 2
  counts : s.FramerCounts
  header : s.FramerHeader
  length : s.FramerLength

theorem State.Inv.framerLegal {s : State} (h : s.Inv) : s.FramerLegal :=
  ⟨h.codes.2, h.framerCounts, h.framerHeader, h.framerLength⟩

theorem framerLegal_of_idle {s : State} (hp : s.frPhase = frIdle) (hb : s.frBuf = []) (hc : s.frCount = 0) :
    s.FramerLegal where
  phase := by simp [hp]
  counts := by simp [State.FramerCounts, hp, hb, hc]
  header := by simp [State.FramerHeader, hp]
  length := by simp [State.FramerLength, hc]

theorem startFrame_legal {s : State} {b : Byte} {phase : BitVec 2}
    (h : (phase = frAccTx ∧ b = s.par.txHeader) ∨ (phase = frAccRx ∧ b = s.par.rxHeader)) :
    (startFrame s phase b).FramerLegal := by
  rcases h with ⟨rfl, rfl⟩ | ⟨rfl, rfl⟩
  · exact ⟨by simp, by simp [State.FramerCounts], by simp [State.FramerHeader], by simp [State.FramerLength]⟩
  · exact ⟨by simp, by simp [State.FramerCounts], by simp [State.FramerHeader], by simp [State.FramerLength]⟩

theorem frameEnds_eq_false {s : State} : frameEnds s = false ↔ s.frCount.toNat < s.frDeclLen.toNat + 2 := by
  have h : (s.frDeclLen.setWidth 16 + 2 : U16).toNat = s.frDeclLen.toNat + 2 := by
    have := s.frDeclLen.isLt
    simp
    omega
  rw [frameEnds, h, decide_eq_false_iff_not, Nat.not_le]

theorem appendByte_legal {s : State} {b : Byte} (h : s.FramerLegal) (hp : s.frPhase ≠ frIdle)
    (he : frameEnds (appendByte s b) = false) : (appendByte s b).FramerLegal := by
  obtain ⟨hphase, ⟨hcount, hidle⟩, ⟨htx, hrx⟩, hlength⟩ := h
  have hend : (s.frCount + 1).toNat < (appendByte s b).frDeclLen.toNat + 2 := frameEnds_eq_false.1 he
  have hpos : s.frCount.toNat ≠ 0 := fun h0 => hp (hidle.2 (BitVec.eq_of_toNat_eq h0))
  have hsucc : (s.frCount + 1).toNat = s.frCount.toNat + 1 := by
    have hsmall : s.frCount.toNat < 257 := by
      by_cases h2 : 2 ≤ s.frCount.toNat
      · have := (hlength h2).1
        have := s.frDeclLen.isLt
        omega
      · omega
    rw [BitVec.toNat_add]
    exact Nat.mod_eq_of_lt (show s.frCount.toNat + 1 < 65536 by omega)
  refine ⟨hphase, ⟨?_, iff_of_false hp fun h0 => ?_⟩, ⟨fun h => ?_, fun h => ?_⟩, fun _ => ⟨hend, ?_⟩⟩
  · rw [appendByte_frCount, hsucc, hcount, appendByte_frBuf, List.length_append, List.length_singleton]
  · rw [show s.frCount + 1 = 0 from h0] at hsucc
    exact Nat.succ_ne_zero _ hsucc.symm
  · simp [List.head?_append, htx h]
  · simp [List.head?_append, hrx h]
  · rw [appendByte_frBuf, appendByte_frDeclLen]
    by_cases h1 : s.frCount.toNat = 1
    · have h2 : s.frCount + 1 = 2 := BitVec.eq_of_toNat_eq (hsucc.trans (congrArg (· + 1) h1))
      rw [if_pos h2, List.getElem?_append_right (by omega)]
      simp [← hcount, h1]
    · have h2 : s.frCount + 1 ≠ 2 := fun h2 => h1 (by rw [h2] at hsucc; exact Nat.succ.inj hsucc.symm)
      rw [if_neg h2, List.getElem?_append_left (by omega)]
      exact (hlength (by omega)).2

theorem completeFrame_legal (s : State) : (completeFrame s).FramerLegal := framerLegal_of_idle rfl rfl rfl

theorem framerByte_legal {s : State} (h : s.FramerLegal) (b : Byte) : (framerByte b s).1.FramerLegal := by
  rcases framerByte_cases b s with
    ⟨-, hb, e⟩ | ⟨-, -, hb, e⟩ | ⟨-, -, -, e⟩ | ⟨-, -, e⟩ | ⟨hp, he, e⟩ <;> rw [e]
  · exact startFrame_legal (.inl ⟨rfl, hb⟩)
  · exact startFrame_legal (.inr ⟨rfl, hb⟩)
  · exact h
  · exact completeFrame_legal _
  · exact appendByte_legal h hp he

theorem framerLegal_setRxin {s : State} (h : s.FramerLegal) (x : List Received) :
    State.FramerLegal { s with rxin := x } := ⟨h.phase, h.counts, h.header, h.length⟩

theorem framerLoop_legal (bs : List Received) {s : State} (h : s.FramerLegal) : (framerLoop bs s).FramerLegal := by
  induction bs generalizing s with
  | nil => exact framerLegal_setRxin h []
  | cons r bs ih =>
    rw [framerLoop_cons]
    split
    · exact ih h
    · split
      · exact framerLegal_setRxin (framerByte_legal h r.byte) bs
      · exact ih (framerByte_legal h r.byte)

theorem framed_legal {s : State} (h : s.FramerLegal) : (framed s).FramerLegal := by
  have h' : (clearOneShot s).FramerLegal := ⟨h.phase, h.counts, h.header, h.length⟩
  unfold framed framerPhase
  split
  · exact framerLegal_setRxin h' []
  · exact framerLoop_legal _ h'

/-- Phases A and B keep the invariant: of its parts they touch only the framer's. -/
theorem State.Inv.framed {s : State} (h : s.Inv) : (framed s).Inv := by
  obtain ⟨hphase, hcounts, hheader, hlength⟩ := framed_legal h.framerLegal
  rw [framed_eq_withFramerOf] at hphase hcounts hheader hlength ⊢
  exact { h with
    codes := ⟨h.codes.1, hphase⟩
    framerCounts := hcounts
    framerHeader := hheader
    framerLength := hlength }

/-! The sequencer's part (R34 items 1 to 5). -/

/-- The step's outputs are no part of the invariant. -/
theorem State.Inv.setOut {s : State} (h : s.Inv) (o : Out) : State.Inv { s with out := o } := { h with }

/-- A cleared session meets what the invariant says of it (R207). -/
theorem State.Inv.cleared {s : State} (h : s.Inv) : s.cleared.Inv :=
  { h with
    codes := ⟨Nat.zero_le _, h.codes.2⟩
    slotMatchesState := iff_of_false nofun (not_not.2 rfl)
    breakMatchesState := iff_of_false nofun nofun
    attemptLegal := ⟨iff_of_true rfl rfl, Nat.zero_le _⟩
    queuesBounded := ⟨Nat.zero_le _, Nat.zero_le _, h.queuesBounded.2.2⟩
    noDuplicates := ⟨List.nodup_nil, List.nodup_nil⟩
    entriesLegal := ⟨nofun, nofun⟩
    slotLegal := rfl }

/-- A command in flight may move between the states other than IDLE. -/
theorem State.Inv.move {s : State} (h : s.Inv) (hs : s.qstate ≠ qIdle) {q : BitVec 3} (hq : q ≠ qIdle) (h4 : q.toNat ≤ 4)
    {low : Bool} (hlow : low = true ↔ q = qBreakReset) : State.Inv { s with qstate := q, lineBreak := low } :=
  { h with
    codes := ⟨h4, h.codes.2⟩
    slotMatchesState := iff_of_true (h.slotMatchesState.2 hs) hq
    breakMatchesState := hlow
    attemptLegal := ⟨iff_of_false (fun h0 => hs (h.attemptLegal.1.1 h0)) hq, h.attemptLegal.2⟩ }

theorem State.Inv.released_of_ne {s : State} (h : s.Inv) (hq : s.qstate ≠ qBreakReset) : s.lineBreak = false :=
  Bool.eq_false_iff.2 fun hb => hq (h.breakMatchesState.1 hb)

/-- An attempt keeps the invariant where its command in flight is one of SENDING (R164). -/
theorem State.Inv.startAttempt {s : State} (now : U32) (h : State.Inv { s with qstate := qSending }) :
    (startAttempt now s).Inv := by
  cases hok : s.nextTxOk with
  | true =>
    rw [startAttempt_of_ok now hok]
    exact { h with }
  | false =>
    rw [startAttempt_of_fail now hok]
    exact { h.cleared with }

/-- An entry added behind its queue, with room for it and no equal command there (R142). -/
theorem State.Inv.push {s : State} (h : s.Inv) {q : Queue} {e : Entry} (hcmd : s.CommandLegal e.cmd)
    (hroom : (s.queue q).length < (s.capacity q).toNat) (hnew : ∀ x ∈ s.queue q, x.cmd ≠ e.cmd) :
    (s.setQueue q (s.queue q ++ [e])).Inv := by
  obtain ⟨hp, hn, hcapP, hcapN⟩ := h.queuesBounded
  have nodup {l : List Entry} (hl : (l.map Entry.cmd).Nodup) (hnew : ∀ x ∈ l, x.cmd ≠ e.cmd) :
      ((l ++ [e]).map Entry.cmd).Nodup := by
    rw [List.map_append, List.nodup_append]
    refine ⟨hl, List.nodup_singleton _, fun c hc d hd => ?_⟩
    obtain ⟨x, hx, rfl⟩ := List.mem_map.1 hc
    exact List.mem_singleton.1 hd ▸ hnew x hx
  have legal {l : List Entry} (hl : ∀ x ∈ l, s.CommandLegal x.cmd) : ∀ x ∈ l ++ [e], s.CommandLegal x.cmd := by
    intro x hx
    rcases List.mem_append.1 hx with hx | hx
    · exact hl x hx
    · exact List.mem_singleton.1 hx ▸ hcmd
  cases q with
  | prio =>
    exact { h with
      queuesBounded := ⟨List.length_append.trans_le (hroom.trans_le hcapP), hn, hcapP, hcapN⟩
      noDuplicates := ⟨nodup h.noDuplicates.1 hnew, h.noDuplicates.2⟩
      entriesLegal := ⟨legal h.entriesLegal.1, h.entriesLegal.2⟩ }
  | norm =>
    exact { h with
      queuesBounded := ⟨hp, List.length_append.trans_le (hroom.trans_le hcapN), hcapP, hcapN⟩
      noDuplicates := ⟨h.noDuplicates.1, nodup h.noDuplicates.2 hnew⟩
      entriesLegal := ⟨h.entriesLegal.1, legal h.entriesLegal.2⟩ }

/-- The entry that `DequeueNext()` takes is legal, and the queues without it keep the invariant (R148). -/
theorem State.Inv.dequeue {s : State} (h : s.Inv) {q : Queue} {e : Entry} {rest : List Entry}
    (hnext : NextEntry s q e rest) : (s.setQueue q rest).Inv ∧ s.CommandLegal e.cmd := by
  obtain ⟨hp, hn, hcap⟩ := h.queuesBounded
  obtain ⟨hdp, hdn⟩ := h.noDuplicates
  obtain ⟨hep, hen⟩ := h.entriesLegal
  rcases hnext with ⟨rfl, hq⟩ | ⟨rfl, -, hq⟩
  · rw [hq] at hp hdp hep
    exact ⟨{ h with
      queuesBounded := ⟨(Nat.le_succ _).trans hp, hn, hcap⟩
      noDuplicates := ⟨(List.nodup_cons.1 hdp).2, hdn⟩
      entriesLegal := ⟨fun x hx => hep x (.tail _ hx), hen⟩ }, hep e (.head _)⟩
  · rw [hq] at hn hdn hen
    exact ⟨{ h with
      queuesBounded := ⟨hp, (Nat.le_succ _).trans hn, hcap⟩
      noDuplicates := ⟨hdp, (List.nodup_cons.1 hdn).2⟩
      entriesLegal := ⟨hep, fun x hx => hen x (.tail _ hx)⟩ }, hen e (.head _)⟩

/-- A legal command loaded into the slot of an idle block is ready for its attempt (R163). -/
theorem State.Inv.loadSlot {s : State} (h : s.Inv) (hq : s.qstate = qIdle) {e : Entry} (he : s.CommandLegal e.cmd)
    (q : Queue) : State.Inv { loadSlot e q s with qstate := qSending } :=
  { h with
    codes := ⟨(by decide : 1 ≤ 4), h.codes.2⟩
    slotMatchesState := iff_of_true rfl nofun
    breakMatchesState := iff_of_false (by simp [h.released_of_ne (by simp [hq]), Machine.loadSlot]) nofun
    attemptLegal := ⟨iff_of_false nofun nofun, (by decide : 1 ≤ 256)⟩
    slotLegal := ⟨he, rfl⟩ }

/-- The end of an exchange (R166). -/
theorem State.Inv.endExchange {s : State} (now : U32) (h : s.Inv) (hq : s.qstate = qSending) :
    (endExchange now s).Inv :=
  { h with
    codes := ⟨Nat.zero_le _, h.codes.2⟩
    slotMatchesState := iff_of_false nofun (not_not.2 rfl)
    breakMatchesState := iff_of_false (by simp [h.released_of_ne (by simp [hq])]) nofun
    attemptLegal := ⟨iff_of_true rfl rfl, Nat.zero_le _⟩
    slotLegal := rfl }

theorem State.Inv.completeExchange {s : State} (now : U32) (nak : Bool) (h : s.Inv) (hq : s.qstate = qSending) :
    (completeExchange now nak s).Inv := by
  have hemit : (emitComplete nak s).Inv := { h with }
  obtain ⟨u, he, rfl | ⟨q, e, -, -, hcmd, hroom, hnew, rfl⟩⟩ := completeExchange_cases now nak s <;> rw [he]
  · exact hemit.endExchange now hq
  · cases q
    · exact (hemit.push (q := .prio) hcmd hroom hnew).endExchange now hq
    · exact (hemit.push (q := .norm) hcmd hroom hnew).endExchange now hq

/-- A retry within the budget, which is at most 255, keeps `ATTEMPT` within its bound (R34 item 3, R172). -/
theorem State.Inv.countAttempt {s : State} (h : s.Inv) (hq : s.qstate = qRetry)
    (hbudget : (s.attempt + 1).toNat ≤ s.cfgMaxRetries.toNat) :
    State.Inv { countAttempt s with qstate := qSending } := by
  have hne : s.qstate ≠ qIdle := by simp [hq]
  have hmax := s.cfgMaxRetries.isLt
  have hsucc : (s.attempt + 1).toNat = s.attempt.toNat + 1 := by
    have := h.attemptLegal.2
    rw [BitVec.toNat_add]
    exact Nat.mod_eq_of_lt (show s.attempt.toNat + 1 < 65536 by omega)
  have hnonzero : s.attempt + 1 ≠ 0 := fun h0 => by
    rw [h0] at hsucc
    exact Nat.succ_ne_zero _ hsucc.symm
  have hsending := h.move hne (q := qSending) (low := s.lineBreak) nofun (by decide)
    (iff_of_false (by simp [h.released_of_ne (by simp [hq])]) nofun)
  exact { hsending with attemptLegal := ⟨iff_of_false hnonzero nofun, show (s.attempt + 1).toNat ≤ 256 by omega⟩ }

/-- Each state action keeps the invariant (R162 to R172). -/
theorem State.Inv.acted {now : U32} {s t : State} (h : s.Inv) (hA : Acted now s t) : t.Inv := by
  cases hA with
  | waited => exact h
  | dispatched q e rest hq _ hnext =>
    obtain ⟨h', he⟩ := h.dequeue hnext
    refine (h'.loadSlot (e := e) ?_ ?_ q).startAttempt now
    · cases q <;> exact hq
    · cases q <;> exact he
  | completed r hq => exact h.completeExchange now r.nak hq
  | reported => exact { h with }
  | timedOut u hq _ _ hu =>
    have hmove := h.move (q := qBreakSet) (low := s.lineBreak) (by simp [hq]) nofun (by decide)
      (iff_of_false (by simp [h.released_of_ne (by simp [hq])]) nofun)
    rcases hu with rfl | ⟨c, rfl⟩
    · exact { hmove with }
    · exact { hmove with }
  | drivenLow hq =>
    have hmove := h.move (q := qBreakReset) (low := true) (by simp [hq]) nofun (by decide) (iff_of_true rfl rfl)
    obtain ⟨hphase, hcounts, hheader, hlength⟩ := framerLegal_of_idle (s := framerReset s) rfl rfl rfl
    exact { hmove with
      codes := ⟨hmove.codes.1, hphase⟩
      framerCounts := hcounts
      framerHeader := hheader
      framerLength := hlength }
  | released hq =>
    have hmove := h.move (q := qRetry) (low := false) (by simp [hq]) nofun (by decide) (iff_of_false nofun nofun)
    exact { hmove with }
  | retried hq _ hbudget => exact (h.countAttempt hq hbudget).startAttempt now
  | exhausted => exact { h.cleared with }

/-- Every instruction keeps the invariant. -/
theorem State.Inv.executed {i : Instr} {s t : State} (h : s.Inv) (hE : Executed s i t) : t.Inv := by
  cases hE with
  | polled now => exact ((h.framed.setOut Out.empty).acted (stateAction_acted now _)).setOut _
  | sessionCleared => exact { h.cleared with }
  | enqueued i q e _ hcmd hroom hnew => exact (h.push hcmd hroom hnew).setOut _
  | timingSet => exact { h with }
  | retriesSet => exact { h with }
  | capacitySet q n hn =>
    obtain ⟨hp, hq, hcapP, hcapN⟩ := h.queuesBounded
    cases q
    · exact { h with queuesBounded := ⟨hp, hq, hn, hcapN⟩ }
    · exact { h with queuesBounded := ⟨hp, hq, hcapP, hn⟩ }
  | answered => exact h.setOut _
  | arrived => exact { h with }

/-- Settles O57: a step leaves the state as it was, or what an instruction leaves, or what an answer or an arrival adds
to it, and each keeps every part of the invariant. -/
theorem stepKeepsInvariant : Obligations.StepKeepsInvariant := by
  intro s t h hstep
  rcases step_cases hstep with ⟨-, rfl⟩ | ⟨input, rest, -, ⟨i, hE⟩ | rfl | ⟨bytes, rfl⟩⟩
  · exact h
  · exact State.Inv.executed (s := { s with inbox := rest }) { h with } hE
  · exact { h with }
  · exact { h with }

/-- Settles O58: the invariant holds no reserved code, so the step completes, and keeps the invariant. -/
theorem invariantStatesNeverStop : Obligations.InvariantStatesNeverStop := by
  intro s h
  obtain ⟨t, hstep⟩ := step_goes h.codes
  exact ⟨t, hstep, (stepKeepsInvariant s t h hstep).codes⟩

theorem resetOf_inv {p : Params} (hp : p.Ok) : (State.resetOf p).Inv where
  params := hp
  codes := ⟨Nat.zero_le _, Nat.zero_le _⟩
  slotMatchesState := iff_of_false nofun (not_not.2 rfl)
  breakMatchesState := iff_of_false nofun nofun
  attemptLegal := ⟨iff_of_true rfl rfl, Nat.zero_le _⟩
  queuesBounded :=
    ⟨Nat.zero_le _, Nat.zero_le _, (resetOf_cfgCapP_toNat hp).le, (resetOf_cfgCapN_toNat hp).le⟩
  noDuplicates := ⟨List.nodup_nil, List.nodup_nil⟩
  entriesLegal := ⟨nofun, nofun⟩
  slotLegal := rfl
  framerCounts := ⟨rfl, iff_of_true rfl rfl⟩
  framerHeader := ⟨nofun, nofun⟩
  framerLength := nofun

/-- Settles O56: after reset nothing is queued, in flight or framed, and the capacities are the depths. -/
theorem resetMeetsInvariant : Obligations.ResetMeetsInvariant := ⟨fun _ hp => resetOf_inv hp, resetOf_inv (by decide)⟩

end Sys2Proof.Machine
end

section
/-! Host operations as whole next states (R131, R140 to R147, R175, R176). -/

namespace Sys2Proof.Machine

/-- An enqueue is the first check of R142 that fails, or the entry at the tail. -/
theorem enqueue_next {s : State} (hl : s.CodesLegal) (q : Queue) (c : Bytes) (loop : Bool) (tag : Option U16) :
    runOp (enqueueOp q c loop tag) s = .next
      (if c.length = 0 ∨ s.par.cmdMaxBytes < c.length then s.answer (.raise .badArg)
       else if (s.capacity q).toNat ≤ (s.queue q).length then s.answer (.raise .queueFull)
       else if ∃ e ∈ s.queue q, e.cmd = c then s.answer (.raise .duplicate)
       else State.answer (s.setQueue q (s.queue q ++ [{ cmd := c, loop := loop, tag := tag }])) (.ok .none)) := by
  have hq : s.begin.queue q = s.queue q := by cases q <;> rfl
  have hcap : s.begin.capacity q = s.capacity q := by cases q <;> rfl
  rw [runOp_of_legal hl, enqueueOp, enqueueCore, hq, hcap, begin_par]
  simp only [hasCmd_iff]
  split_ifs
  · rfl
  · rfl
  · rfl
  · cases q <;> rfl

/-- Settles O12: both enqueues are `EnqueueCore` on their own queue. -/
theorem enqueueChecksInOrder : Obligations.EnqueueChecksInOrder := fun _ c loop tag hl =>
  ⟨enqueue_next hl .norm c loop tag, enqueue_next hl .prio c loop tag⟩

/-- The queue `q` takes the command: it is legal, there is room, and no entry has it yet (R142). -/
abbrev State.Accepts (s : State) (q : Queue) (c : Bytes) : Prop :=
  s.CommandLegal c ∧ (s.queue q).length < (s.capacity q).toNat ∧ ∀ e ∈ s.queue q, e.cmd ≠ c

/-- An enqueue answers a code and leaves the queue, or the queue takes the command and gets it as its last entry. -/
theorem enqueue_cases {s t : State} {q : Queue} {c : Bytes} {loop : Bool} {tag : Option U16}
    (h : runOp (enqueueOp q c loop tag) s = .next t) :
    (¬ s.Accepts q c ∧ ∃ r, t = s.answer r) ∨
      (s.Accepts q c ∧ ∃ e, e.cmd = c ∧ t = (s.setQueue q (s.queue q ++ [e])).answer (.ok .none)) := by
  obtain ⟨hl, -⟩ := runOp_next.1 h
  rw [enqueue_next hl, Host.Outcome.next.injEq] at h
  split_ifs at h with hbad hfull hdup
  · exact .inl ⟨fun ⟨hc, _⟩ => by omega, _, h.symm⟩
  · exact .inl ⟨fun ⟨_, hroom, _⟩ => by omega, _, h.symm⟩
  · obtain ⟨e, he, hc⟩ := hdup
    exact .inl ⟨fun ⟨_, _, hnew⟩ => hnew e he hc, _, h.symm⟩
  · exact .inr ⟨⟨⟨by omega, by omega⟩, by omega, fun e he hc => hdup ⟨e, he, hc⟩⟩, _, rfl, h.symm⟩

/-- What the first enqueue refuses the second refuses, and what it takes is a duplicate then (R149). -/
theorem enqueue_twice {s t u : State} (q : Queue) (c : Bytes) {l₁ l₂ : Bool} {t₁ t₂ : Option U16}
    (h₁ : runOp (enqueueOp q c l₁ t₁) s = .next t) (h₂ : runOp (enqueueOp q c l₂ t₂) t = .next u) :
    u.queue q = t.queue q := by
  rcases enqueue_cases h₂ with ⟨-, r, rfl⟩ | ⟨htaken, -⟩
  · cases q <;> rfl
  · exfalso
    rcases enqueue_cases h₁ with ⟨hrefused, r, rfl⟩ | ⟨-, e, hc, rfl⟩
    · cases q <;> exact hrefused htaken
    · cases q <;> exact htaken.2.2 e (List.mem_append_right _ (.head _)) hc

/-- Settles O13: both enqueues are `EnqueueCore` on their own queue, whatever the loop flags and the tags. -/
theorem secondEnqueueLeavesQueue : Obligations.SecondEnqueueLeavesQueue := fun _ _ _ c _ _ _ _ _ =>
  ⟨fun h₁ h₂ => enqueue_twice .norm c h₁ h₂, fun h₁ h₂ => enqueue_twice .prio c h₁ h₂⟩

/-- Settles O14: CLEAR is the session clear with its one event. -/
theorem clearEmptiesSession : Obligations.ClearEmptiesSession := fun s hl => by
  rw [exec_clear, runOp_of_legal hl, sessionClear_eq]
  rfl

/-- Settles O15: both return a value read from the state they find. -/
theorem statusOperations : Obligations.StatusOperations := fun s hl => by
  rw [exec_isIdle, exec_pending, runOp_of_legal hl, runOp_of_legal hl]
  refine ⟨?_, rfl⟩
  have h : decide (s.qstate = qIdle) = (s.qstate == 0) := by rw [beq_eq_decide]
  rw [← h]
  rfl

theorem setCapacity_next {s : State} (hl : s.CodesLegal) (q : Queue) (n : U16) :
    exec (.setCapacity q n) s = .next
      (if n.toNat > s.depth q then s.answer (.raise .badArg) else State.answer (s.setCapacity q n) (.ok .none)) := by
  have hdepth : s.begin.depth q = s.depth q := by cases q <;> rfl
  rw [exec_setCapacity, runOp_of_legal hl, setCapacityCore, hdepth]
  split_ifs
  · rfl
  · cases q <;> rfl

/-- Settles O16: the capacity is held against the depth of the queue that the selector names. -/
theorem setCapacityWritesOneRegister : Obligations.SetCapacityWritesOneRegister := fun _ n hl =>
  ⟨setCapacity_next hl .prio n, setCapacity_next hl .norm n⟩

/-- Settles O17: each assigned number is a row of `readRegister`, and it has no other row. -/
theorem readRegisterTable : Obligations.ReadRegisterTable := by
  intro s regno hl
  refine ⟨fun v hv => ?_, fun hr => exec_readReg_of_none hl (readRegister_of_reserved s.begin hr)⟩
  have hflags : ∀ rx tx : Bool, bit32 rx ||| (bit32 tx <<< 1) = (if rx then 1 else 0) + (if tx then 2 else 0) := by
    decide
  apply exec_readReg_of_some hl
  simp only [List.mem_cons, Prod.mk.injEq, List.not_mem_nil, or_false] at hv
  rcases hv with
    ⟨rfl, rfl⟩ | ⟨rfl, rfl⟩ | ⟨rfl, rfl⟩ | ⟨rfl, rfl⟩ | ⟨rfl, rfl⟩ | ⟨rfl, rfl⟩ | ⟨rfl, rfl⟩ | ⟨rfl, rfl⟩ |
    ⟨rfl, rfl⟩ | ⟨rfl, rfl⟩ | ⟨rfl, rfl⟩ | ⟨rfl, rfl⟩ | ⟨rfl, rfl⟩ | ⟨rfl, rfl⟩ | ⟨rfl, rfl⟩ | ⟨rfl, rfl⟩ |
    ⟨rfl, rfl⟩ | ⟨rfl, rfl⟩ | ⟨rfl, rfl⟩ | ⟨rfl, rfl⟩
  case inr.inr.inr.inr.inr.inr.inr.inr.inr.inr.inr.inr.inr.inr.inr.inr.inr.inr.inr =>
    exact congrArg some (hflags s.rxDone s.txDone)
  all_goals rfl

/-- Settles O18: both directions are read from the state as it is. -/
theorem readFrameReturnsRegister : Obligations.ReadFrameReturnsRegister := fun s hl => by
  rw [exec_readFrame, exec_readFrame, runOp_of_legal hl, runOp_of_legal hl]
  exact ⟨rfl, rfl⟩

/-- Settles O19: each writes its own registers and answers `OK`. -/
theorem timingConfiguration : Obligations.TimingConfiguration := fun s a b c n hl => by
  rw [exec_setTiming, exec_setMaxRetries, runOp_of_legal hl, runOp_of_legal hl]
  exact ⟨rfl, rfl⟩

/-- Settles O10: the code of a result does not depend on the value, and each error has its own. -/
theorem resultCodes : Obligations.ResultCodes := ⟨fun _ => rfl, rfl, rfl, rfl, rfl, rfl, rfl, rfl, rfl, rfl, rfl⟩

/-- Settles O52: every row is an arrival of its own bytes, and the command byte of its class stands after the length
byte. -/
theorem frameArrives : Obligations.FrameArrives := by
  intro s body data dir cmd arrives h framedAs
  have hframe (c : Byte) : encodeFrame (headerOf s.par dir) (c :: data) = framedAs c := by
    have hh : headerOf s.par dir = h := by cases dir <;> rfl
    rw [hh, encodeFrame, xorFold_eq_foldl]
    rfl
  have harrive {i : Instr} {c : Byte} (hi : i.isRequest = false)
      (hc : encode s.par i = encodeFrame (headerOf s.par dir) (c :: data)) : arrives i (framedAs c) := by
    show exec i s = _
    rw [exec_frame i s hi, hc, hframe]
    rfl
  have hack : ∀ cmd : BitVec 7, ackCommand cmd = 0x80 + cmd.setWidth 8 := by decide
  exact ⟨rfl, rfl, harrive rfl rfl, hack cmd ▸ harrive rfl rfl, harrive rfl rfl⟩

/-- Settles O32: with nothing queued, or before the spacing interval has elapsed, the IDLE action does nothing. -/
theorem idleWaits : Obligations.IdleWaits := by
  intro s now hl hq hwait
  have hidle : idleAction now (framed s).begin = (framed s).begin := by
    rcases hwait with ⟨hp, hn⟩ | ⟨harmed, hrun⟩
    · exact idleAction_of_empty now ((framed_pq s).trans hp) ((framed_nq s).trans hn)
    · have hno : spacingHolds (framed s).begin now = false := by
        rw [Bool.eq_false_iff, Ne, spacingHolds_iff]
        simp only [begin_spacingArmed, framed_spacingArmed, harmed, begin_cfgSpacing, framed_cfgSpacing,
          begin_spacingStart, framed_spacingStart, reduceCtorEq, false_or, Nat.not_le]
        exact hrun
      simp [idleAction, hno]
  rw [exec_poll_of_legal hl, stateAction_idle (s := (framed s).begin) now ((framed_qstate s).trans hq), hidle]
  rfl

end Sys2Proof.Machine
end

section
/-! The codec (R100 to R112). -/

namespace Sys2Proof.Machine

/-- Settles O21: ENCODE is `EncodeFrame` on the header of the direction, its checksum the XOR of all bytes before it. -/
theorem encodeBuildsFrame : Obligations.EncodeBuildsFrame := by
  intro s dir command index payload hl c h head
  have hh : headerOf s.par dir = h := by cases dir <;> rfl
  rw [exec_encodeOp, runOp_of_legal hl, begin_par, hh, encodeCore, encodeFrame, xorFold_eq_foldl]
  split_ifs with h₁ h₂ h₂
  · rfl
  · exact absurd h₁ h₂
  · exact absurd h₂ h₁
  · rfl

theorem belowMin_iff (minLen : Option U16) (n : Nat) :
    belowMin minLen n = true ↔ ∃ m, minLen = some m ∧ n < m.toNat := by
  cases minLen <;> simp [belowMin]

theorem differs_iff (expected : Option Byte) (found : Byte) :
    differs expected found = true ↔ ∃ e, expected = some e ∧ found ≠ e := by
  cases expected <;> simp [differs]

theorem isNakByte_iff (c : Byte) : isNakByte c = true ↔ c = 0x7F := beq_iff_eq

/-- The result of DECODE (R103). -/
def recordResult : Except ErrCode FrameRecord → Result
  | .ok r => .ok (.record r)
  | .error e => .raise e

theorem decodeOp_next {s : State} (hl : s.CodesLegal) (b : Bytes) (cmd idx : Option Byte) (minLen : Option U16) :
    exec (.decodeOp b cmd idx minLen) s = .next (s.answer (recordResult (decodeFrame b cmd idx minLen))) := by
  rw [exec_decodeOp, runOp_of_legal hl]
  cases decodeFrame b cmd idx minLen
  · rfl
  · rfl

/-- Settles O22: the checks are those of `Decode` in the same order, and the data of its record stand between the
command byte and the checksum. -/
theorem decodeChecksInOrder : Obligations.DecodeChecksInOrder := by
  intro s b cmd idx minLen hl n at' record
  have hrecord : frameRecord b = record := by
    simp only [frameRecord, isNakByte_iff, List.drop_take, Nat.sub_sub]
    rfl
  rw [decodeOp_next hl, decodeFrame, xorFold_eq_foldl, hrecord]
  simp only [apply_ite recordResult]
  exact congrArg (fun r => Host.Outcome.next (s.answer r))
    (if_congr Iff.rfl rfl (if_congr (belowMin_iff ..) rfl (if_congr Iff.rfl rfl (if_congr Iff.rfl rfl
      (if_congr (isNakByte_iff _) rfl (if_congr (differs_iff ..) rfl (if_congr (differs_iff ..) rfl rfl)))))))

/-- Settles O23: an encoded frame is its bytes before the checksum and their XOR. -/
theorem encodedFrameWellFormed : Obligations.EncodedFrameWellFormed := by
  refine ⟨fun h c hpos hmax => ⟨?_, encodeFrame_length h c, ?_, lengthByte_toNat hmax⟩, by decide⟩
  · rw [encodeFrame, xorFold_eq_foldl]
    rfl
  · rw [← xorFold_eq_foldl, encodeFrame, xorFold_append]
    simp

/-- What `Decode` makes of a frame with the layout of R70, where no minimum applies. -/
theorem decodeFrame_of_wellFormed {s : Bytes} (h : wellFormedFrame s = true) (cmd idx : Option Byte) :
    decodeFrame s cmd idx none =
      if isNakByte (byteAt s 2) then .ok (frameRecord s)
      else if differs cmd (maskAck (byteAt s 2)) then .error .decCommandMismatch
      else if differs idx (byteAt s 3) then .error .decIndexMismatch
      else .ok (frameRecord s) := by
  simp only [wellFormedFrame, Bool.and_eq_true, decide_eq_true_eq, beq_iff_eq] at h
  obtain ⟨⟨hn, hl⟩, hx⟩ := h
  rw [decodeFrame, if_neg (Nat.not_lt.2 hn), if_neg (by simp [belowMin]), if_neg (not_not.2 hl), if_neg (not_not.2 hx)]

theorem frameRecord_encodeFrame (h : Byte) (k : Byte) (data : Bytes) :
    (frameRecord (encodeFrame h (k :: data))).command = k ∧ (frameRecord (encodeFrame h (k :: data))).data = data ∧
      (frameRecord (encodeFrame h (k :: data))).ack = k.getLsbD 7 ∧
      (frameRecord (encodeFrame h (k :: data))).nak = isNakByte k := by
  refine ⟨rfl, ?_, rfl, rfl⟩
  show ((encodeFrame h (k :: data)).take ((encodeFrame h (k :: data)).length - 1)).drop 3 = data
  rw [encodeFrame_take]
  rfl

/-- The command bytes on either side of 0x7F, under the NAK test and the ACK mask. -/
theorem commandByte_tests (k : Byte) :
    (k.toNat ≤ 0x7E → isNakByte k = false ∧ maskAck k = k ∧ k.getLsbD 7 = false) ∧
      (0x80 ≤ k.toNat → isNakByte k = false ∧ maskAck k ≠ k) := by
  revert k; decide

/-- The index of a command string is the byte after the command (R71). -/
theorem differs_index (h k : Byte) (index : Option Byte) (payload : Bytes) :
    differs index (byteAt (encodeFrame h (commandString k index payload)) 3) = false := by
  cases index <;> simp [differs, commandString, encodeFrame, frameHead]

/-- Settles O24: an encoded frame passes every check before the command test, which its own command byte passes exactly
where bit 7 is clear. -/
theorem codecRoundTrip : Obligations.CodecRoundTrip := by
  intro h k index payload hmax f
  have hwf : wellFormedFrame f = true := wellFormedFrame_encodeFrame h (by simp [commandString]) hmax
  have hk : byteAt f 2 = k := rfl
  obtain ⟨hcmd, hdata, hack, hnak⟩ := frameRecord_encodeFrame h k (index.toList ++ payload)
  have hidx : differs index (byteAt f 3) = false := differs_index h k index payload
  obtain ⟨hlow, hhigh⟩ := commandByte_tests k
  refine ⟨fun hle => ?_, fun h7F => ?_, fun hge => ?_, ?_⟩
  · obtain ⟨hn, hm, hb⟩ := hlow hle
    refine ⟨frameRecord f, ?_, hcmd, hdata, hack.trans hb, hnak.trans hn⟩
    have hsame : differs (some k) k = false := by simp [differs]
    simp [decodeFrame_of_wellFormed hwf, hk, hn, hm, hsame, hidx]
  · refine ⟨frameRecord f, ?_, hnak.trans (h7F ▸ rfl)⟩
    rw [decodeFrame_of_wellFormed hwf, hk, h7F]
    rfl
  · obtain ⟨hn, hm⟩ := hhigh hge
    simp [decodeFrame_of_wellFormed hwf, hk, hn, differs, hm]
  · refine ⟨frameRecord f, ?_, hcmd, hdata⟩
    simp [decodeFrame_of_wellFormed hwf, differs]

/-- Settles O25: the length checks come before all others, and only the minimum comes before the length byte. -/
theorem wrongLengthRejected : Obligations.WrongLengthRejected := by
  intro b cmd idx minLen
  refine ⟨fun hshort => if_pos hshort, fun hlong hl => ?_⟩
  rw [decodeFrame, if_neg (Nat.not_lt.2 hlong)]
  by_cases hmin : belowMin minLen b.length = true
  · exact .inr ⟨(belowMin_iff ..).1 hmin, if_pos hmin⟩
  · rw [if_neg hmin]
    exact .inl (if_pos hl)

theorem xorFold_set (s : Bytes) (i : Nat) (m : Byte) (hi : i < s.length) :
    xorFold (s.set i (byteAt s i ^^^ m)) = xorFold s ^^^ m := by
  induction s generalizing i with
  | nil => cases hi
  | cons b s ih =>
    cases i with
    | zero => simp [BitVec.xor_assoc, BitVec.xor_comm]
    | succ i => simp [ih i (Nat.lt_of_succ_lt_succ hi), BitVec.xor_assoc]

/-- The checksum is right exactly when the bytes XOR to 0 (R73). -/
theorem checksum_iff {s : Bytes} (hs : 0 < s.length) :
    byteAt s (s.length - 1) = xorFold (s.take (s.length - 1)) ↔ xorFold s = 0 := by
  obtain ⟨t, x, rfl⟩ : ∃ t x, s = t ++ [x] := ⟨_, _, (List.dropLast_append_getLast (List.ne_nil_of_length_pos hs)).symm⟩
  rw [List.length_append, List.length_singleton, Nat.add_sub_cancel, byteAt_append_length, List.take_left, xorFold_append,
    xorFold_cons, xorFold_nil, show x ^^^ (0 : Byte) = x from BitVec.xor_zero, eq_comm]
  exact BitVec.xor_eq_zero_iff.symm

theorem byteAt_set_same {s : Bytes} {i : Nat} (hi : i < s.length) (x : Byte) : byteAt (s.set i x) i = x := by
  simp [byteAt, hi]

theorem byteAt_set_ne (s : Bytes) {i j : Nat} (h : i ≠ j) (x : Byte) : byteAt (s.set i x) j = byteAt s j := by
  simp [byteAt, List.getElem?_set_ne h]

theorem bit_ne_zero : ∀ k < 8, (1#8 <<< k) ≠ 0 := by decide

theorem xor_ne_self {x m : Byte} (hm : m ≠ 0) : x ^^^ m ≠ x := fun h => hm (by simpa using h)

/-- Settles O26: a flip in the length byte makes it wrong, and a flip anywhere else makes the XOR of all bytes the
flipped bit, which is not 0. -/
theorem singleBitErrorRejected : Obligations.SingleBitErrorRejected := by
  intro b cmd idx minLen r i k hok hi hk b'
  obtain ⟨hn, hmin, hl, hx, -, -⟩ := decodeFrame_ok.1 hok
  have hbit := bit_ne_zero k hk
  have hlen : b'.length = b.length := List.length_set
  rw [decodeFrame, hlen, if_neg (Nat.not_lt.2 hn), if_neg (by simp [hmin])]
  by_cases h1 : i = 1
  · subst h1
    have hflip : byteAt b' 1 ≠ byteAt b 1 := (byteAt_set_same hi _).trans_ne (xor_ne_self hbit)
    rw [if_pos fun h => hflip (BitVec.eq_of_toNat_eq (h.trans hl.symm))]
    rfl
  · have hkeep : byteAt b' 1 = byteAt b 1 := byteAt_set_ne b h1 _
    have hsum : xorFold b' ≠ 0 := by
      rw [xorFold_set b i _ hi, (checksum_iff (by omega)).1 hx]
      exact (BitVec.zero_xor).trans_ne hbit
    have hwrong : byteAt b' (b.length - 1) ≠ xorFold (b'.take (b.length - 1)) := fun h =>
      hsum ((checksum_iff (by omega)).1 (hlen ▸ h))
    rw [hkeep, if_neg (not_not.2 hl), if_pos hwrong, if_neg h1]

/-- Settles O35: `Decode` accepts a NAK whatever command it expects, and the exchange it ends queues nothing again. -/
theorem nakCompletes : Obligations.NakCompletes := by
  intro s now hl hq hrx hwf hcmd
  have hnak : isNakByte (byteAt (framed s).rxFrame 2) = true := (isNakByte_iff _).2 hcmd
  have hd : decodeReply (framed s).begin = .ok (frameRecord (framed s).rxFrame) := by
    rw [framed_decodeReply, decodeFrame_of_wellFormed hwf, if_pos hnak]
  have hr : (frameRecord (framed s).rxFrame).nak = true := hnak
  refine ⟨_, exec_poll_of_legal hl now, ?_⟩
  rw [stateAction_sending (s := (framed s).begin) now ((framed_qstate s).trans hq),
    sendingAction_of_accepted now (s := (framed s).begin) hrx hd, completeExchange_of_once now (.inr hr), hr]
  simp [emitComplete]

end Sys2Proof.Machine
end

section
/-! The event stream (R204) is read back in one way only: each field says where it ends. -/

namespace Sys2Proof.Machine

theorem be16_append_inj {v w : U16} {xs ys : Bytes} (h : be16 v ++ xs = be16 w ++ ys) : v = w ∧ xs = ys := by
  simp only [be16, List.cons_append, List.nil_append, List.cons.injEq] at h
  obtain ⟨hhi, hlo, hrest⟩ := h
  rw [← ofBe16_be16 v, ← ofBe16_be16 w, hhi, hlo]
  exact ⟨rfl, hrest⟩

theorem tagBytes_append_inj {g k : Option U16} {xs ys : Bytes} (h : tagBytes g ++ xs = tagBytes k ++ ys) :
    g = k ∧ xs = ys := by
  cases g with
  | none =>
    cases k with
    | none => exact ⟨rfl, List.append_cancel_left h⟩
    | some w => exact absurd (List.cons.inj h).1 (by decide)
  | some v =>
    cases k with
    | none => exact absurd (List.cons.inj h).1 (by decide)
    | some w =>
      obtain ⟨rfl, hrest⟩ := be16_append_inj (List.cons.inj h).2
      exact ⟨rfl, hrest⟩

/-- The count field bounds the bytes after it, as long as it can hold their number. -/
theorem countedBytes_append_inj {s t xs ys : Bytes} (hs : s.length ≤ 65535) (ht : t.length ≤ 65535)
    (h : countedBytes s ++ xs = countedBytes t ++ ys) : s = t ∧ xs = ys := by
  rw [countedBytes, countedBytes, List.append_assoc, List.append_assoc] at h
  obtain ⟨hcount, hrest⟩ := be16_append_inj h
  have hlen : s.length = t.length := by
    have := congrArg BitVec.toNat hcount
    rwa [toNat_ofNat_length (by omega), toNat_ofNat_length (by omega)] at this
  exact List.append_inj hrest hlen

theorem byteOfBool_inj {a b : Bool} (h : byteOfBool a = byteOfBool b) : a = b := by
  revert a b; decide

theorem failCode_inj {a b : FailReason} (h : a.code = b.code) : a = b := by
  cases a <;> cases b <;> simp [FailReason.code] at h ⊢

theorem clearCode_inj {a b : ClearReason} (h : a.code = b.code) : a = b := by
  cases a <;> cases b <;> simp [ClearReason.code] at h ⊢

/-- The error that a code of R76 stands for. -/
def errorOfCode (c : Byte) : ErrCode :=
  if c = 0x01 then .queueFull else if c = 0x02 then .duplicate else if c = 0x03 then .badArg
  else if c = 0x04 then .illegalOp else if c = 0x10 then .decTooShort else if c = 0x11 then .decMinLength
  else if c = 0x12 then .decLengthMismatch else if c = 0x13 then .decChecksum
  else if c = 0x14 then .decCommandMismatch else .decIndexMismatch

theorem errorOfCode_code (e : ErrCode) : errorOfCode e.code = e := by
  cases e <;> rfl

theorem errorCode_inj {a b : ErrCode} (h : a.code = b.code) : a = b := by
  rw [← errorOfCode_code a, h, errorOfCode_code]

/-- An event's bytes say which event it is and where they end. -/
theorem eventBytes_append_inj {e f : Event} {xs ys : Bytes} (he : e.FramesFit) (hf : f.FramesFit)
    (h : e.bytes ++ xs = f.bytes ++ ys) : e = f ∧ xs = ys := by
  cases e with
  | transmitted g a =>
    cases f with
    | transmitted k b =>
      simp only [Event.bytes, List.cons_append, List.append_assoc, List.cons.injEq, true_and] at h
      obtain ⟨rfl, h₁⟩ := tagBytes_append_inj h
      obtain ⟨rfl, h₂⟩ := be16_append_inj h₁
      exact ⟨rfl, h₂⟩
    | _ => exact absurd (List.cons.inj h).1 (by decide)
  | complete g n a tx rx =>
    cases f with
    | complete k m b tx' rx' =>
      simp only [Event.bytes, List.cons_append, List.append_assoc, List.cons.injEq, true_and] at h
      obtain ⟨rfl, h₁⟩ := tagBytes_append_inj h
      obtain ⟨hnak, h₂⟩ := List.cons.inj h₁
      obtain rfl := byteOfBool_inj hnak
      obtain ⟨rfl, h₃⟩ := be16_append_inj h₂
      obtain ⟨rfl, h₄⟩ := countedBytes_append_inj he.1 hf.1 h₃
      obtain ⟨rfl, h₅⟩ := countedBytes_append_inj he.2 hf.2 h₄
      exact ⟨rfl, h₅⟩
    | _ => exact absurd (List.cons.inj h).1 (by decide)
  | timeout g a =>
    cases f with
    | timeout k b =>
      simp only [Event.bytes, List.cons_append, List.append_assoc, List.cons.injEq, true_and] at h
      obtain ⟨rfl, h₁⟩ := tagBytes_append_inj h
      obtain ⟨rfl, h₂⟩ := be16_append_inj h₁
      exact ⟨rfl, h₂⟩
    | _ => exact absurd (List.cons.inj h).1 (by decide)
  | failed g r a =>
    cases f with
    | failed k q b =>
      simp only [Event.bytes, List.cons_append, List.append_assoc, List.cons.injEq, true_and] at h
      obtain ⟨rfl, h₁⟩ := tagBytes_append_inj h
      obtain ⟨hreason, h₂⟩ := List.cons.inj h₁
      obtain rfl := failCode_inj hreason
      obtain ⟨rfl, h₃⟩ := be16_append_inj h₂
      exact ⟨rfl, h₃⟩
    | _ => exact absurd (List.cons.inj h).1 (by decide)
  | cleared r =>
    cases f with
    | cleared q =>
      simp only [Event.bytes, List.cons_append, List.nil_append, List.cons.injEq, true_and] at h
      exact ⟨congrArg Event.cleared (clearCode_inj h.1), h.2⟩
    | _ => exact absurd (List.cons.inj h).1 (by decide)
  | frameError g c =>
    cases f with
    | frameError k d =>
      simp only [Event.bytes, List.cons_append, List.append_assoc, List.cons.injEq, true_and, List.nil_append] at h
      obtain ⟨rfl, h₁⟩ := tagBytes_append_inj h
      obtain ⟨hcode, h₂⟩ := List.cons.inj h₁
      exact ⟨congrArg (Event.frameError g) (errorCode_inj hcode), h₂⟩
    | _ => exact absurd (List.cons.inj h).1 (by decide)

theorem eventBytes_ne_nil (e : Event) (xs : Bytes) : e.bytes ++ xs ≠ [] := by
  cases e <;> exact List.cons_ne_nil _ _

/-- Settles O11: the stream is taken apart one event at a time, from its front. -/
theorem eventBytesDetermineEvent : Obligations.EventBytesDetermineEvent := by
  intro es
  induction es with
  | nil =>
    intro fs _ _ h
    cases fs with
    | nil => rfl
    | cons f fs => exact absurd h.symm (eventBytes_ne_nil f _)
  | cons e es ih =>
    intro fs hes hfs h
    cases fs with
    | nil => exact absurd h (eventBytes_ne_nil e _)
    | cons f fs =>
      obtain ⟨he, hes⟩ := List.forall_mem_cons.1 hes
      obtain ⟨hf, hfs'⟩ := List.forall_mem_cons.1 hfs
      obtain ⟨hef, hrest⟩ := eventBytes_append_inj he hf h
      rw [hef, ih fs hes hfs' hrest]

end Sys2Proof.Machine
end

section
/-! The framer over a list of received bytes (R121 to R127). -/

namespace Sys2Proof.Machine

/-! What a loop over bytes leaves of the flags and the frame registers. -/

/-- No frame completed between `s` and `t`. -/
abbrev SameFrames (s t : State) : Prop :=
  t.rxDone = s.rxDone ∧ t.txDone = s.txDone ∧ t.rxFrame = s.rxFrame ∧ t.txFrame = s.txFrame

/-- One frame completed between `s` and `t`, and `b` is its last byte (R124). -/
abbrev FrameEndedBy (b : Byte) (s t : State) : Prop :=
  (t.rxDone = true ∧ t.rxFrame.getLast? = some b ∧ t.txDone = s.txDone ∧ t.txFrame = s.txFrame) ∨
    (t.txDone = true ∧ t.txFrame.getLast? = some b ∧ t.rxDone = s.rxDone ∧ t.rxFrame = s.rxFrame)

theorem completeFrame_endedBy (s : State) (b : Byte) : FrameEndedBy b s (completeFrame (appendByte s b)) := by
  unfold completeFrame
  split
  · exact .inl ⟨rfl, by simp, rfl, rfl⟩
  · exact .inr ⟨rfl, by simp, rfl, rfl⟩

theorem framerByte_frames (b : Byte) (s : State) :
    if (framerByte b s).2 then FrameEndedBy b s (framerByte b s).1 else SameFrames s (framerByte b s).1 := by
  rcases framerByte_cases b s with
    ⟨-, -, e⟩ | ⟨-, -, -, e⟩ | ⟨-, -, -, e⟩ | ⟨-, -, e⟩ | ⟨-, -, e⟩ <;> rw [e]
  · exact ⟨rfl, rfl, rfl, rfl⟩
  · exact ⟨rfl, rfl, rfl, rfl⟩
  · exact ⟨rfl, rfl, rfl, rfl⟩
  · exact completeFrame_endedBy s b
  · exact ⟨rfl, rfl, rfl, rfl⟩

/-- The loop of R125: all bytes are taken and no frame completes, or it stops behind the byte that ends one, which is no
byte of a hold. -/
theorem framerLoop_frames (bs : List Received) (s : State) :
    (SameFrames s (framerLoop bs s) ∧ (framerLoop bs s).rxin = []) ∨
      ∃ taken b, bs = taken ++ ⟨b, false⟩ :: (framerLoop bs s).rxin ∧ FrameEndedBy b s (framerLoop bs s) := by
  induction bs generalizing s with
  | nil => exact .inl ⟨⟨rfl, rfl, rfl, rfl⟩, rfl⟩
  | cons r bs ih =>
    obtain ⟨b, k⟩ := r
    cases k with
    | true =>
      rw [framerLoop_cons_break]
      rcases ih s with h | ⟨taken, c, hbs, h⟩
      · exact .inl h
      · exact .inr ⟨⟨b, true⟩ :: taken, c, congrArg _ hbs, h⟩
    | false =>
      rw [framerLoop_cons_traffic]
      have hb := framerByte_frames b s
      split_ifs at hb ⊢ with hend
      · exact .inr ⟨[], b, rfl, hb⟩
      · obtain ⟨hrx, htx, hrxf, htxf⟩ := hb
        rcases ih (framerByte b s).1 with ⟨⟨h1, h2, h3, h4⟩, h⟩ | ⟨taken, c, hbs, h⟩
        · exact .inl ⟨⟨h1.trans hrx, h2.trans htx, h3.trans hrxf, h4.trans htxf⟩, h⟩
        · rw [FrameEndedBy, hrx, htx, hrxf, htxf] at h
          exact .inr ⟨⟨b, false⟩ :: taken, c, congrArg _ hbs, h⟩

/-- A loop that completes no frame takes up where it stopped (R125). -/
theorem framerLoop_append {bs : List Received} (cs : List Received) {s : State}
    (hrx : (framerLoop bs s).rxDone = false) (htx : (framerLoop bs s).txDone = false) :
    framerLoop (bs ++ cs) s = framerLoop cs (framerLoop bs s) := by
  induction bs generalizing s with
  | nil => exact (framerLoop_rxin cs s []).symm
  | cons r bs ih =>
    obtain ⟨b, k⟩ := r
    cases k with
    | true => exact ih hrx htx
    | false =>
      rw [List.cons_append]
      rw [framerLoop_cons_traffic] at hrx htx ⊢
      have hb := framerByte_frames b s
      rw [framerLoop_cons_traffic]
      split_ifs at hb hrx htx ⊢ with hend
      · rcases hb with ⟨h, -⟩ | ⟨h, -⟩
        · exact absurd (h.symm.trans hrx) nofun
        · exact absurd (h.symm.trans htx) nofun
      · exact ih hrx htx

/-! Noise, and one frame. -/

theorem framerByte_of_noise {b : Byte} {s : State} (hidle : s.frPhase = frIdle) (htx : b ≠ s.par.txHeader)
    (hrx : b ≠ s.par.rxHeader) : framerByte b s = (s, false) := by
  simp [framerByte, hidle, htx, hrx]

/-- An idle framer drops bytes that are no header, and any byte of a hold (R121, R127). -/
theorem framerLoop_noise (noise rest : List Received) {s : State} (hidle : s.frPhase = frIdle)
    (hnoise : ∀ r ∈ noise, r.inBreak = true ∨ (r.byte ≠ s.par.txHeader ∧ r.byte ≠ s.par.rxHeader)) :
    framerLoop (noise ++ rest) s = framerLoop rest s := by
  induction noise with
  | nil => rfl
  | cons r noise ih =>
    obtain ⟨hr, hnoise⟩ := List.forall_mem_cons.1 hnoise
    rw [List.cons_append, framerLoop_cons]
    split
    · exact ih hnoise
    next hk =>
      obtain ⟨htx, hrx⟩ := hr.resolve_left hk
      rw [framerByte_of_noise hidle htx hrx]
      exact ih hnoise

/-- `s` with a frame in progress: the bytes `buf` so far, the length byte `l` among them. -/
def State.midFrame (s : State) (phase : BitVec 2) (buf : Bytes) (l : Byte) : State :=
  { s with frPhase := phase, frBuf := buf, frCount := BitVec.ofNat 16 buf.length, frDeclLen := l }

theorem appendByte_midFrame {s : State} {phase : BitVec 2} {buf : Bytes} {l : Byte} (h2 : 2 ≤ buf.length)
    (hmax : buf.length < 257) (b : Byte) : appendByte (s.midFrame phase buf l) b = s.midFrame phase (buf ++ [b]) l := by
  have hcount : BitVec.ofNat 16 buf.length + 1 = BitVec.ofNat 16 (buf ++ [b]).length := by
    rw [List.length_append, List.length_singleton, BitVec.ofNat_add]
    rfl
  have hne : BitVec.ofNat 16 (buf ++ [b]).length ≠ 2 := fun h => by
    have := congrArg BitVec.toNat h
    rw [toNat_ofNat_length (by simp; omega), List.length_append, List.length_singleton] at this
    simp at this
    omega
  simp only [appendByte, State.midFrame, hcount, if_neg hne]

theorem frameEnds_midFrame (s : State) (phase : BitVec 2) {buf : Bytes} (l : Byte) (hmax : buf.length ≤ 257) :
    frameEnds (s.midFrame phase buf l) = decide (l.toNat + 2 ≤ buf.length) := by
  have hcount : (s.midFrame phase buf l).frCount.toNat = buf.length := toNat_ofNat_length (by omega)
  rw [Bool.eq_iff_iff, decide_eq_true_iff, ← Nat.not_lt, ← hcount, ← Bool.not_eq_false]
  exact not_congr frameEnds_eq_false

/-- The byte that ends a frame completes it, and the bytes behind it stay in `RXIN` (R123, R125). -/
theorem framerLoop_of_ends {s : State} {b : Byte} (rest : List Received) (hp : s.frPhase ≠ frIdle)
    (h : frameEnds (appendByte s b) = true) :
    framerLoop (⟨b, false⟩ :: rest) s = { completeFrame (appendByte s b) with rxin := rest } := by
  rw [framerLoop_cons_traffic, framerByte, if_neg hp, if_pos h]
  rfl

theorem framerLoop_of_not_ends {s : State} {b : Byte} (rest : List Received) (hp : s.frPhase ≠ frIdle)
    (h : frameEnds (appendByte s b) = false) :
    framerLoop (⟨b, false⟩ :: rest) s = framerLoop rest (appendByte s b) := by
  rw [framerLoop_cons_traffic, framerByte, if_neg hp, if_neg (Bool.eq_false_iff.1 h)]
  rfl

/-- The framer takes the bytes of a frame in progress up to the last one its length byte declares (R122, R123). -/
theorem framerLoop_midFrame {s : State} {phase : BitVec 2} (hp : phase ≠ frIdle) {l : Byte} (rest : List Received)
    (xs buf : Bytes) (h2 : 2 ≤ buf.length) (hxs : xs ≠ []) (hlen : buf.length + xs.length = l.toNat + 2) :
    framerLoop (traffic xs ++ rest) (s.midFrame phase buf l) =
      { completeFrame (s.midFrame phase (buf ++ xs) l) with rxin := rest } := by
  have hl := l.isLt
  induction xs generalizing buf with
  | nil => exact absurd rfl hxs
  | cons x xs ih =>
    rw [List.length_cons] at hlen
    have happ := appendByte_midFrame (s := s) (phase := phase) (l := l) h2 (by omega) x
    have hbuf : (buf ++ [x]).length = buf.length + 1 := by simp
    have hends := frameEnds_midFrame s phase (buf := buf ++ [x]) l (by omega)
    rw [← happ] at hends
    cases xs with
    | nil =>
      rw [decide_eq_true (by simp at hlen; omega)] at hends
      refine (framerLoop_of_ends rest hp hends).trans ?_
      rw [happ]
    | cons y ys =>
      rw [decide_eq_false (by simp at hlen; omega)] at hends
      refine (framerLoop_of_not_ends (traffic (y :: ys) ++ rest) hp hends).trans ?_
      rw [happ, ih (buf ++ [x]) (by omega) (List.cons_ne_nil _ _) (by omega), List.append_assoc]
      rfl

/-- A whole frame that an idle framer finds first is completed, whatever its bytes are (R121 to R124). -/
theorem framerLoop_frame {s : State} {phase : BitVec 2} {h l : Byte} {body : Bytes} (rest : List Received)
    (hp : phase ≠ frIdle) (hstart : framerByte h s = (startFrame s phase h, false)) (hbody : body.length = l.toNat) :
    framerLoop (traffic (h :: l :: body) ++ rest) s =
      { completeFrame (s.midFrame phase (h :: l :: body) l) with rxin := rest } := by
  have hhead : framerLoop (traffic (h :: l :: body) ++ rest) s =
      framerLoop (⟨l, false⟩ :: (traffic body ++ rest)) (startFrame s phase h) := by
    show framerLoop (⟨h, false⟩ :: ⟨l, false⟩ :: (traffic body ++ rest)) s = _
    rw [framerLoop_cons_traffic, hstart]
    rfl
  have hends : frameEnds (appendByte (startFrame s phase h) l) = decide (l.toNat + 2 ≤ 2) :=
    frameEnds_midFrame s phase (buf := [h, l]) l (by simp)
  rw [hhead]
  cases body with
  | nil =>
    rw [decide_eq_true (by simp at hbody; omega)] at hends
    exact framerLoop_of_ends rest hp hends
  | cons x xs =>
    rw [decide_eq_false (by simp at hbody; omega)] at hends
    refine (framerLoop_of_not_ends (traffic (x :: xs) ++ rest) hp hends).trans ?_
    exact framerLoop_midFrame hp rest (x :: xs) [h, l] (by simp) (List.cons_ne_nil _ _) (by simp at hbody ⊢; omega)

theorem framerByte_txHeader {s : State} (hidle : s.frPhase = frIdle) :
    framerByte s.par.txHeader s = (startFrame s frAccTx s.par.txHeader, false) := by
  simp [framerByte, hidle]

theorem framerByte_rxHeader {s : State} (hidle : s.frPhase = frIdle) (hne : s.par.txHeader ≠ s.par.rxHeader) :
    framerByte s.par.rxHeader s = (startFrame s frAccRx s.par.rxHeader, false) := by
  simp [framerByte, hidle, hne.symm]

end Sys2Proof.Machine
end

section
/-! The framer in a POLL (R120 to R132). -/

namespace Sys2Proof.Machine

/-- Phase C leaves an idle framer as it is, or resets it, which BREAK_SET does. -/
theorem stateAction_framer (now : U32) (s : State) (hne : s.qstate ≠ 2) :
    (stateAction now s).frPhase = s.frPhase ∧ (stateAction now s).frBuf = s.frBuf ∧
      (stateAction now s).frCount = s.frCount ∧ (stateAction now s).frDeclLen = s.frDeclLen := by
  have h := stateAction_outsideSequencer now hne
  exact ⟨(congrArg State.frPhase h :), (congrArg State.frBuf h :), (congrArg State.frCount h :),
    (congrArg State.frDeclLen h :)⟩

theorem stateAction_framer_of_breakSet (now : U32) {s : State} (hq : s.qstate = 2) :
    (stateAction now s).frPhase = 0 ∧ (stateAction now s).frBuf = [] ∧ (stateAction now s).frCount = 0 ∧
      (stateAction now s).frDeclLen = 0 := by
  rw [stateAction_breakSet now hq]
  exact ⟨rfl, rfl, rfl, rfl⟩

/-- What a POLL leaves of the framer's outputs and of `RXIN` is what phases A and B leave of them. -/
theorem poll_framerOutputs {now : U32} {s t : State} (h : exec (.poll now) s = .next t) :
    t.rxin = (framed s).rxin ∧ t.rxDone = (framed s).rxDone ∧ t.txDone = (framed s).txDone ∧
      t.rxFrame = (framed s).rxFrame ∧ t.txFrame = (framed s).txFrame := by
  obtain ⟨-, rfl⟩ := exec_poll_next.1 h
  simp

/-- So it is with the framer itself outside BREAK_SET. -/
theorem poll_framer {now : U32} {s t : State} (h : exec (.poll now) s = .next t) (hne : s.qstate ≠ 2) :
    t.frPhase = (framed s).frPhase ∧ t.frBuf = (framed s).frBuf ∧ t.frCount = (framed s).frCount ∧
      t.frDeclLen = (framed s).frDeclLen := by
  obtain ⟨-, rfl⟩ := exec_poll_next.1 h
  exact stateAction_framer now (framed s).begin ((framed_qstate s).trans_ne hne)

theorem poll_framer_of_breakSet {now : U32} {s t : State} (h : exec (.poll now) s = .next t) (hq : s.qstate = 2) :
    t.frPhase = 0 ∧ t.frBuf = [] ∧ t.frCount = 0 ∧ t.frDeclLen = 0 := by
  obtain ⟨-, rfl⟩ := exec_poll_next.1 h
  exact stateAction_framer_of_breakSet now (s := (framed s).begin) ((framed_qstate s).trans hq)

/-- A framer that phases A and B leave idle and empty is so after the POLL, whatever the sequencer does. -/
theorem poll_framer_of_empty {now : U32} {s t : State} (h : exec (.poll now) s = .next t)
    (hempty : (framed s).frPhase = 0 ∧ (framed s).frBuf = [] ∧ (framed s).frCount = 0 ∧ (framed s).frDeclLen = 0) :
    t.frPhase = 0 ∧ t.frBuf = [] ∧ t.frCount = 0 ∧ t.frDeclLen = 0 := by
  by_cases hq : s.qstate = 2
  · exact poll_framer_of_breakSet h hq
  · obtain ⟨h1, h2, h3, h4⟩ := poll_framer h hq
    rw [h1, h2, h3, h4]
    exact hempty

theorem framed_of_break {s : State} (hb : s.lineBreak = true) :
    framed s = { s with rxin := [], rxDone := false, txDone := false } :=
  framerPhase_of_break (s := clearOneShot s) hb

theorem framed_of_released {s : State} (hb : s.lineBreak = false) : framed s = framerLoop s.rxin (clearOneShot s) :=
  framerPhase_of_released (s := clearOneShot s) hb

/-! Noise and whole frames. -/

/-- Settles O29: phases A and B over bytes that are no header empty `RXIN` and do nothing else but clear the flags. -/
theorem noiseDropped : Obligations.NoiseDropped := by
  intro s now hl hb hidle hnoise
  have hframed : framed s = { s with rxin := [], rxDone := false, txDone := false } := by
    have := framerLoop_noise s.rxin [] (s := clearOneShot s) hidle hnoise
    rw [List.append_nil] at this
    rw [framed_of_released hb, this]
    rfl
  obtain ⟨t, h⟩ := exec_goes (.poll now) hl
  obtain ⟨hrxin, hrx, htx, hrxf, htxf⟩ := poll_framerOutputs h
  rw [hframed] at hrxin hrx htx hrxf htxf
  refine ⟨_, h, hrxin, hrx, htx, hrxf, htxf, ?_, fun hq => ?_⟩
  · by_cases hq : s.qstate = 2
    · exact (poll_framer_of_breakSet h hq).1
    · rw [(poll_framer h hq).1, hframed]
      exact hidle
  · obtain ⟨-, h2, h3, h4⟩ := poll_framer h hq
    rw [h2, h3, h4, hframed]
    exact ⟨rfl, rfl, rfl⟩

/-- Phases A and B with an idle framer that finds noise and then a whole frame. -/
theorem framed_of_frame {s : State} {noise body : Bytes} {rest : List Received} {h l : Byte} {phase : BitVec 2}
    (hb : s.lineBreak = false) (hidle : s.frPhase = frIdle) (hp : phase ≠ frIdle)
    (hnoise : ∀ b ∈ noise, b ≠ s.par.txHeader ∧ b ≠ s.par.rxHeader)
    (hstart : framerByte h (clearOneShot s) = (startFrame (clearOneShot s) phase h, false))
    (hbody : body.length = l.toNat) (hin : s.rxin = traffic (noise ++ h :: l :: body) ++ rest) :
    framed s = { completeFrame ((clearOneShot s).midFrame phase (h :: l :: body) l) with rxin := rest } := by
  have hsplit : s.rxin = traffic noise ++ (traffic (h :: l :: body) ++ rest) := by
    rw [hin, traffic, received, List.map_append, List.append_assoc]
    rfl
  have hdrop : ∀ r ∈ traffic noise, r.inBreak = true ∨
      (r.byte ≠ (clearOneShot s).par.txHeader ∧ r.byte ≠ (clearOneShot s).par.rxHeader) := by
    intro r hr
    obtain ⟨b, hb, rfl⟩ := List.mem_map.1 hr
    exact .inr (hnoise b hb)
  rw [framed_of_released hb, hsplit, framerLoop_noise (s := clearOneShot s) _ _ hidle hdrop,
    framerLoop_frame rest hp hstart hbody]

theorem completeFrame_of_rx {s : State} (h : s.frPhase = frAccRx) :
    completeFrame s = framerReset { s with rxFrame := s.frBuf, rxDone := true } := by
  rw [completeFrame, if_pos h]

theorem completeFrame_of_tx {s : State} (h : s.frPhase = frAccTx) :
    completeFrame s = framerReset { s with txFrame := s.frBuf, txDone := true } := by
  rw [completeFrame, if_neg (by simp [h])]

theorem framed_of_rxFrame {s : State} {noise body : Bytes} {rest : List Received} {l : Byte}
    (hb : s.lineBreak = false) (hidle : s.frPhase = frIdle) (hne : s.par.txHeader ≠ s.par.rxHeader)
    (hnoise : ∀ b ∈ noise, b ≠ s.par.txHeader ∧ b ≠ s.par.rxHeader) (hbody : body.length = l.toNat)
    (hin : s.rxin = traffic (noise ++ s.par.rxHeader :: l :: body) ++ rest) :
    framed s =
      { s with
        rxin := rest, rxDone := true, txDone := false, rxFrame := s.par.rxHeader :: l :: body
        frPhase := frIdle, frBuf := [], frCount := 0, frDeclLen := 0 } := by
  have hstart : framerByte s.par.rxHeader (clearOneShot s) = (startFrame (clearOneShot s) frAccRx s.par.rxHeader, false) :=
    framerByte_rxHeader (s := clearOneShot s) hidle hne
  rw [framed_of_frame hb hidle (by decide) hnoise hstart hbody hin, completeFrame_of_rx rfl]
  rfl

theorem framed_of_txFrame {s : State} {noise body : Bytes} {rest : List Received} {l : Byte}
    (hb : s.lineBreak = false) (hidle : s.frPhase = frIdle)
    (hnoise : ∀ b ∈ noise, b ≠ s.par.txHeader ∧ b ≠ s.par.rxHeader) (hbody : body.length = l.toNat)
    (hin : s.rxin = traffic (noise ++ s.par.txHeader :: l :: body) ++ rest) :
    framed s =
      { s with
        rxin := rest, rxDone := false, txDone := true, txFrame := s.par.txHeader :: l :: body
        frPhase := frIdle, frBuf := [], frCount := 0, frDeclLen := 0 } := by
  have hstart : framerByte s.par.txHeader (clearOneShot s) = (startFrame (clearOneShot s) frAccTx s.par.txHeader, false) :=
    framerByte_txHeader (s := clearOneShot s) hidle
  rw [framed_of_frame hb hidle (by decide) hnoise hstart hbody hin, completeFrame_of_tx rfl]
  rfl

/-- Settles O28: the header decides the direction, and the framer is reset when the frame ends. -/
theorem frameReassembled : Obligations.FrameReassembled := by
  intro s now noise body rest h l hl hb hidle hne hnoise hbody hin
  obtain ⟨t, hpoll⟩ := exec_goes (.poll now) hl
  obtain ⟨hrxin, hrx, htx, hrxf, htxf⟩ := poll_framerOutputs hpoll
  refine ⟨fun hh => ⟨_, hpoll, ?_⟩, fun hh => ⟨_, hpoll, ?_⟩⟩
  · subst hh
    have hframed := framed_of_rxFrame hb hidle hne hnoise hbody hin
    have hempty := poll_framer_of_empty hpoll (by rw [hframed]; exact ⟨rfl, rfl, rfl, rfl⟩)
    rw [hframed] at hrxin hrx htx hrxf htxf
    exact ⟨hrxin, hrx, hrxf, htx, htxf, hempty⟩
  · subst hh
    have hframed := framed_of_txFrame hb hidle hnoise hbody hin
    have hempty := poll_framer_of_empty hpoll (by rw [hframed]; exact ⟨rfl, rfl, rfl, rfl⟩)
    rw [hframed] at hrxin hrx htx hrxf htxf
    exact ⟨hrxin, htx, htxf, hrx, hrxf, hempty⟩

/-- Settles O37: the frame has the header of the TX direction, so that SENDING finds no RX frame, and its interval has
not elapsed. -/
theorem echoCompletesNothing : Obligations.EchoCompletesNothing := by
  intro s now l body hl hq hb hidle hbuf hcount hdecl hbody hin hrun
  have hframed := framed_of_txFrame (noise := []) (rest := []) hb hidle nofun hbody (by rw [hin]; simp)
  have hrx : (framed s).begin.rxDone = false := by rw [hframed]; rfl
  have hwait := timeoutCheck_framed now s []
  rw [if_neg (Nat.not_le.2 hrun)] at hwait
  rw [exec_poll_of_legal hl, stateAction_sending (s := (framed s).begin) now ((framed_qstate s).trans hq),
    sendingAction_of_noFrame now hrx]
  refine congrArg Host.Outcome.next (hwait.trans ?_)
  simp [hframed, State.done, hidle, hbuf, hcount, hdecl]

/-! At most one frame in a POLL. -/

/-- Phases A and B clear both flags and then set one of them at most (R125, R126). -/
theorem framed_frames (s : State) :
    SameFrames { s with rxDone := false, txDone := false } (framed s) ∧ (framed s).rxin = [] ∨
      ∃ taken b, s.rxin = taken ++ ⟨b, false⟩ :: (framed s).rxin ∧
        FrameEndedBy b { s with rxDone := false, txDone := false } (framed s) := by
  cases hb : s.lineBreak with
  | true =>
    rw [framed_of_break hb]
    exact .inl ⟨⟨rfl, rfl, rfl, rfl⟩, rfl⟩
  | false =>
    rw [framed_of_released hb]
    exact framerLoop_frames s.rxin (clearOneShot s)

/-- Nothing but a POLL writes the framer's outputs. -/
theorem Executed.frames {i : Instr} {s t : State} (h : Executed s i t) (hpoll : ∀ now, i ≠ .poll now) :
    SameFrames s t := by
  cases h with
  | polled now => exact absurd rfl (hpoll now)
  | enqueued i q => cases q <;> exact ⟨rfl, rfl, rfl, rfl⟩
  | capacitySet q => cases q <;> exact ⟨rfl, rfl, rfl, rfl⟩
  | sessionCleared => exact ⟨rfl, rfl, rfl, rfl⟩
  | timingSet => exact ⟨rfl, rfl, rfl, rfl⟩
  | retriesSet => exact ⟨rfl, rfl, rfl, rfl⟩
  | answered => exact ⟨rfl, rfl, rfl, rfl⟩
  | arrived => exact ⟨rfl, rfl, rfl, rfl⟩

/-- Settles O30: phase A clears the flags and the loop of phase B stops behind the byte that sets one. -/
theorem atMostOneFramePerPoll : Obligations.AtMostOneFramePerPoll := by
  refine ⟨fun s t now h => ?_, fun s now rx tx => rfl, fun s t i hpoll h => ?_⟩
  · obtain ⟨hrxin, hrx, htx, hrxf, htxf⟩ := poll_framerOutputs h
    rw [hrxin, hrx, htx, hrxf, htxf]
    rcases framed_frames s with ⟨⟨h1, h2, h3, h4⟩, hin⟩ | ⟨taken, b, hin, ⟨h1, hb, h2, h3⟩ | ⟨h1, hb, h2, h3⟩⟩
    · rw [h1, h2, h3, h4, hin]
      exact ⟨nofun, fun _ => rfl, fun _ => rfl, s.rxin, (List.append_nil _).symm, nofun, nofun⟩
    · rw [h1, h2, h3, hin]
      refine ⟨nofun, nofun, fun _ => rfl, taken ++ [⟨b, false⟩], List.append_cons .., fun _ => ?_, nofun⟩
      exact ⟨b, List.getLast?_concat, hb⟩
    · rw [h1, h2, h3, hin]
      refine ⟨nofun, fun _ => rfl, nofun, taken ++ [⟨b, false⟩], List.append_cons .., nofun, fun _ => ?_⟩
      exact ⟨b, List.getLast?_concat, hb⟩
  · obtain ⟨h1, h2, h3, h4⟩ := (executed_of_exec h).frames hpoll
    exact ⟨h1, h2, h3, h4⟩

end Sys2Proof.Machine
end

section
/-! Bytes split over two POLLs (R132), and the bytes of a hold (R127). -/

namespace Sys2Proof.Machine

/-! The framer reads and writes its own part of the state, the parameters and the break output apart. -/

theorem completeFrame_withFramerOf (s u : State) :
    completeFrame (s.withFramerOf u) = s.withFramerOf (completeFrame u) := by
  unfold completeFrame
  rw [show (s.withFramerOf u).frPhase = u.frPhase from rfl]
  split <;> rfl

theorem framerByte_withFramerOf {s u : State} (hpar : s.par = u.par) (b : Byte) :
    framerByte b (s.withFramerOf u) = (s.withFramerOf (framerByte b u).1, (framerByte b u).2) := by
  have happ : appendByte (s.withFramerOf u) b = s.withFramerOf (appendByte u b) := rfl
  have hends : frameEnds (s.withFramerOf (appendByte u b)) = frameEnds (appendByte u b) := rfl
  have hphase : (s.withFramerOf u).frPhase = u.frPhase := rfl
  have hpar' : (s.withFramerOf u).par = u.par := hpar
  unfold framerByte
  rw [happ, hends, hphase, hpar', completeFrame_withFramerOf]
  split_ifs <;> rfl

theorem framerLoop_withFramerOf (bs : List Received) {s u : State} (hpar : s.par = u.par) :
    framerLoop bs (s.withFramerOf u) = s.withFramerOf (framerLoop bs u) := by
  induction bs generalizing u with
  | nil => rfl
  | cons r bs ih =>
    have hpar' : s.par = (framerByte r.byte u).1.par :=
      hpar.trans (congrArg State.par (framerByte_outsideFramer r.byte u)).symm
    rw [framerLoop_cons, framerLoop_cons, framerByte_withFramerOf hpar]
    split
    · exact ih hpar
    · split
      · rfl
      · exact ih hpar'

/-- Phases A and B do the same to the framer whatever the sequencer and the session are. -/
theorem framed_withFramerOf {s u : State} (hpar : s.par = u.par) (hb : s.lineBreak = u.lineBreak) :
    framed (s.withFramerOf u) = s.withFramerOf (framed u) := by
  cases hu : u.lineBreak with
  | true =>
    rw [framed_of_break hu, framed_of_break (s := s.withFramerOf u) (hb.trans hu)]
    rfl
  | false =>
    rw [framed_of_released hu, framed_of_released (s := s.withFramerOf u) (hb.trans hu)]
    exact framerLoop_withFramerOf u.rxin (u := clearOneShot u) hpar

/-! Two POLLs. -/

theorem clearOneShot_of_clear {s : State} (hrx : s.rxDone = false) (htx : s.txDone = false) : clearOneShot s = s :=
  (congrArg₂ (fun rx tx : Bool => ({ s with rxDone := rx, txDone := tx } : State)) hrx htx).symm

/-- Phases A and B over bytes that complete no frame and then over the rest are phases A and B over all of them. -/
theorem framed_append {s : State} {a : List Received} (b : List Received)
    (hrx : (framed { s with rxin := a }).rxDone = false) (htx : (framed { s with rxin := a }).txDone = false) :
    framed { framed { s with rxin := a } with rxin := b } = framed { s with rxin := a ++ b } := by
  rcases Bool.eq_false_or_eq_true s.lineBreak with hb | hb
  · rw [framed_of_break (s := { s with rxin := a }) hb, framed_of_break (s := { s with rxin := a ++ b }) hb]
    exact framed_of_break hb
  · have hu := framed_of_released (s := { s with rxin := a }) hb
    have hb' : (framed { s with rxin := a }).lineBreak = false := (framed_lineBreak _).trans hb
    rw [framed_of_released (s := { framed { s with rxin := a } with rxin := b }) hb',
      framed_of_released (s := { s with rxin := a ++ b }) hb,
      clearOneShot_of_clear (s := { framed { s with rxin := a } with rxin := b }) hrx htx]
    rw [hu] at hrx htx ⊢
    exact (framerLoop_rxin b _ b).trans ((framerLoop_append b hrx htx).symm.trans
      (framerLoop_rxin (a ++ b) (clearOneShot { s with rxin := a }) (a ++ b)).symm)

/-- A POLL that finds the bus released, and not in BREAK_SET, leaves it released (R24). -/
theorem poll_keeps_released {now : U32} {s t : State} (hb : s.lineBreak = false) (hq : s.qstate ≠ 2)
    (h : exec (.poll now) s = .next t) : t.lineBreak = false := by
  obtain ⟨u, hA, rfl⟩ := poll_acted h
  rcases hA.lineBreak with h | ⟨h, -⟩ | ⟨-, -, h⟩ | ⟨h, -⟩
  · exact h.trans ((framed_lineBreak s).trans hb)
  · exact absurd ((framed_qstate s).symm.trans h) hq
  · exact h
  · exact h

/-- After a POLL outside BREAK_SET the framer is what phases A and B left of it. -/
theorem poll_withFramerOf {now : U32} {s t : State} (hq : s.qstate ≠ 2) (h : exec (.poll now) s = .next t) :
    t = t.withFramerOf (framed s) := by
  obtain ⟨h1, h2, h3, h4, h5⟩ := poll_framerOutputs h
  obtain ⟨h6, h7, h8, h9⟩ := poll_framer h hq
  rw [State.withFramerOf, ← h1, ← h2, ← h3, ← h4, ← h5, ← h6, ← h7, ← h8, ← h9]

/-- Settles O31: the framer's part of the state is all that phases A and B work on, and a loop that completes no frame
takes up where it stopped. -/
theorem frameSpansPolls : Obligations.FrameSpansPolls := by
  refine ⟨fun s a b hrx htx => framed_append b hrx htx, ?_, ?_⟩
  · intro s u v w a b t₁ t₂ hb hq h₁ hrx htx h₂ h₃
    obtain ⟨-, hfrx, hftx, -⟩ := poll_framerOutputs h₁
    have hu := poll_withFramerOf (s := { s with rxin := a }) hq h₁
    have hpar : u.par = (framed { s with rxin := a }).par := (poll_keeps h₁).1.trans (framed_par _).symm
    have hlow : u.lineBreak = (framed { s with rxin := a }).lineBreak :=
      (poll_keeps_released (s := { s with rxin := a }) hb hq h₁).trans ((framed_lineBreak { s with rxin := a }).trans hb).symm
    have hframed : framed { u with rxin := b } = u.withFramerOf (framed { s with rxin := a ++ b }) := by
      have h := framed_withFramerOf (s := u) (u := { framed { s with rxin := a } with rxin := b }) hpar hlow
      rw [framed_append b (hfrx ▸ hrx) (hftx ▸ htx)] at h
      rw [← h]
      exact congrArg (fun x : State => framed { x with rxin := b }) hu
    obtain ⟨h1, h2, h3, h4, h5⟩ := poll_framerOutputs h₂
    obtain ⟨k1, k2, k3, k4, k5⟩ := poll_framerOutputs h₃
    rw [hframed] at h1 h2 h3 h4 h5
    refine ⟨h1.trans k1.symm, h2.trans k2.symm, h3.trans k3.symm, h4.trans k4.symm, h5.trans k5.symm, fun huq => ?_⟩
    obtain ⟨h1, h2, h3, h4⟩ := poll_framer h₂ huq
    obtain ⟨k1, k2, k3, k4⟩ := poll_framer h₃ hq
    rw [hframed] at h1 h2 h3 h4
    exact ⟨h1.trans k1.symm, h2.trans k2.symm, h3.trans k3.symm, h4.trans k4.symm⟩
  · intro s u v w a b t₁ t₂ h₁ hu hrx htx h₂ h₃
    subst hu
    obtain ⟨-, rfl⟩ := exec_poll_next.1 h₂
    obtain ⟨-, rfl⟩ := exec_poll_next.1 h₃
    rw [← framed_append b hrx htx, ← framed_begin, ← framed_begin]
    rfl

/-! The bytes of a hold: what `RXIN` holds makes no difference to anything but phase B. -/

theorem startAttempt_setRxin (now : U32) (s : State) (x : List Received) :
    startAttempt now { s with rxin := x } = { startAttempt now s with rxin := x } := by
  rw [startAttempt_eq, startAttempt_eq, show State.nextTxOk { s with rxin := x } = s.nextTxOk from rfl]
  split <;> rfl

theorem dequeueNext_setRxin (s : State) (x : List Received) :
    dequeueNext { s with rxin := x } = (dequeueNext s).map fun r => (r.1, r.2.1, { r.2.2 with rxin := x }) := by
  unfold dequeueNext
  dsimp only
  split <;> rfl

theorem dispatch_setRxin (now : U32) (s : State) (x : List Received) :
    dispatch now { s with rxin := x } = { dispatch now s with rxin := x } := by
  unfold dispatch
  rw [dequeueNext_setRxin]
  cases dequeueNext s with
  | none => rfl
  | some r => exact startAttempt_setRxin now (loadSlot r.1 r.2.1 r.2.2) x

theorem enqueueCore_setRxin (q : Queue) (c : Bytes) (loop : Bool) (tag : Option U16) (s : State) (x : List Received) :
    enqueueCore q c loop tag { s with rxin := x } =
      (enqueueCore q c loop tag s).map fun t => { t with rxin := x } := by
  unfold enqueueCore
  simp only [apply_ite (Except.map fun t : State => { t with rxin := x })]
  cases q <;> rfl

theorem loopRequeue_setRxin (s : State) (x : List Received) :
    loopRequeue { s with rxin := x } = { loopRequeue s with rxin := x } := by
  unfold loopRequeue
  rw [enqueueCore_setRxin]
  cases enqueueCore s.slot.origin s.slot.cmd true s.slot.tag s <;> rfl

theorem completeExchange_setRxin (now : U32) (nak : Bool) (s : State) (x : List Received) :
    completeExchange now nak { s with rxin := x } = { completeExchange now nak s with rxin := x } := by
  unfold completeExchange
  simp only
  split
  · exact congrArg (endExchange now) (loopRequeue_setRxin (emitComplete nak s) x)
  · rfl

theorem timeoutCheck_setRxin (now : U32) (s : State) (x : List Received) :
    timeoutCheck now { s with rxin := x } = { timeoutCheck now s with rxin := x } := by
  rw [timeoutCheck, timeoutCheck, show timerElapsed { s with rxin := x } now = timerElapsed s now from rfl]
  split <;> rfl

theorem sendingAction_setRxin (now : U32) (s : State) (x : List Received) :
    sendingAction now { s with rxin := x } = { sendingAction now s with rxin := x } := by
  unfold sendingAction
  rw [show decodeReply { s with rxin := x } = decodeReply s from rfl]
  simp only
  split
  · split
    · exact completeExchange_setRxin now _ s x
    · exact timeoutCheck_setRxin now (s.emit _) x
  · exact timeoutCheck_setRxin now s x

theorem retryAction_setRxin (now : U32) (s : State) (x : List Received) :
    retryAction now { s with rxin := x } = { retryAction now s with rxin := x } := by
  rw [retryAction, retryAction, show timerElapsed { s with rxin := x } now = timerElapsed s now from rfl,
    show retriesExhausted (countAttempt { s with rxin := x }) = retriesExhausted (countAttempt s) from rfl]
  split
  · split
    · rfl
    · exact startAttempt_setRxin now (countAttempt s) x
  · rfl

/-- No state action reads `RXIN` (R120). -/
theorem stateAction_setRxin (now : U32) (s : State) (x : List Received) :
    stateAction now { s with rxin := x } = { stateAction now s with rxin := x } := by
  unfold stateAction
  simp only
  split_ifs
  · unfold idleAction
    rw [show spacingHolds { s with rxin := x } now = spacingHolds s now from rfl]
    simp only
    split_ifs
    · rfl
    · exact dispatch_setRxin now s x
    · rfl
  · exact sendingAction_setRxin now s x
  · rfl
  · rw [breakResetAction, breakResetAction,
      show timerElapsed { s with rxin := x } now = timerElapsed s now from rfl]
    split <;> rfl
  · exact retryAction_setRxin now s x
  · rfl

theorem setCapacityCore_setRxin (q : Queue) (n : U16) (s : State) (x : List Received) :
    setCapacityCore q n { s with rxin := x } = (setCapacityCore q n s).map fun t => { t with rxin := x } := by
  unfold setCapacityCore
  simp only [apply_ite (Except.map fun t : State => { t with rxin := x })]
  cases q <;> rfl

/-- An operation that neither reads `RXIN` nor writes it. -/
abbrev IgnoresRxin (op : State → Except ErrCode (State × Value)) : Prop :=
  ∀ (s : State) (x : List Received), op { s with rxin := x } = (op s).map fun r => ({ r.1 with rxin := x }, r.2)

theorem runOp_setRxin {op : State → Except ErrCode (State × Value)} (hop : IgnoresRxin op) {s t : State}
    (h : runOp op s = .next t) (x : List Received) :
    runOp op { s with rxin := x } = .next { t with rxin := x } := by
  obtain ⟨hl, rfl⟩ := runOp_next.1 h
  refine runOp_next.2 ⟨hl, ?_⟩
  rw [show State.begin { s with rxin := x } = { s.begin with rxin := x } from rfl, hop]
  cases op s.begin <;> rfl

/-- Every request but POLL ignores `RXIN`. -/
theorem exec_ignoresRxin {i : Instr} (hi : i.isRequest = true) (hpoll : ∀ now, i ≠ .poll now) :
    ∃ op, IgnoresRxin op ∧ ∀ s, exec i s = runOp op s := by
  cases i with
  | enqn c l g =>
    refine ⟨_, fun s x => ?_, exec_enqn c l g⟩
    rw [enqueueOp, enqueueOp, enqueueCore_setRxin]
    cases enqueueCore .norm c l g s <;> rfl
  | enqp c l g =>
    refine ⟨_, fun s x => ?_, exec_enqp c l g⟩
    rw [enqueueOp, enqueueOp, enqueueCore_setRxin]
    cases enqueueCore .prio c l g s <;> rfl
  | clear => exact ⟨_, fun _ _ => rfl, exec_clear⟩
  | isIdle => exact ⟨_, fun _ _ => rfl, exec_isIdle⟩
  | pending => exact ⟨_, fun _ _ => rfl, exec_pending⟩
  | setTiming a b c => exact ⟨_, fun _ _ => rfl, exec_setTiming a b c⟩
  | setMaxRetries n => exact ⟨_, fun _ _ => rfl, exec_setMaxRetries n⟩
  | setCapacity q n =>
    refine ⟨_, fun s x => ?_, exec_setCapacity q n⟩
    rw [setCapacityCore_setRxin]
    cases setCapacityCore q n s <;> rfl
  | readReg r =>
    refine ⟨fun s => match readRegister s r with
      | some v => .ok (s, .reg v)
      | none => .error .badArg, fun s x => ?_, fun _ => rfl⟩
    have hread : readRegister { s with rxin := x } r = readRegister s r := rfl
    simp only [hread]
    cases readRegister s r <;> rfl
  | readFrame d =>
    refine ⟨_, fun s x => ?_, exec_readFrame d⟩
    cases d <;> rfl
  | encodeOp d k x y =>
    refine ⟨_, fun s z => ?_, exec_encodeOp d k x y⟩
    simp only
    cases encodeCore (headerOf s.par d) (commandString k x y) <;> rfl
  | decodeOp b k x m =>
    refine ⟨_, fun s z => ?_, exec_decodeOp b k x m⟩
    simp only
    cases decodeFrame b k x m <;> rfl
  | poll now => exact absurd rfl (hpoll now)
  | reservedIllegalOp op rest => exact ⟨_, fun _ _ => rfl, exec_reservedIllegalOp op rest⟩
  | frameEchoTx => cases hi
  | frameReplyRx => cases hi
  | frameNak => cases hi
  | frameAck => cases hi
  | framePlain => cases hi

/-- Phases A and B do without the bytes of the hold what they do with them (R127). -/
theorem framed_forgetBreakBytes (s : State) : framed s.forgetBreakBytes = (framed s).forgetBreakBytes := by
  rcases Bool.eq_false_or_eq_true s.lineBreak with hb | hb
  · rw [framed_of_break hb, framed_of_break (s := s.forgetBreakBytes) hb]
    rfl
  · rw [framed_of_released hb, framed_of_released (s := s.forgetBreakBytes) hb]
    exact (framerLoop_rxin _ (clearOneShot s) _).trans (framerLoop_filter s.rxin (clearOneShot s))

theorem Executed.rxin {i : Instr} {s t : State} (h : Executed s i t) (hi : i.isRequest = true)
    (hpoll : ∀ now, i ≠ .poll now) : t.rxin = s.rxin := by
  cases h with
  | polled now => exact absurd rfl (hpoll now)
  | arrived i hf => exact absurd (hf.symm.trans hi) nofun
  | enqueued i q => cases q <;> rfl
  | capacitySet q => cases q <;> rfl
  | sessionCleared => rfl
  | timingSet => rfl
  | retriesSet => rfl
  | answered => rfl

/-- A request does without the bytes of the hold what it does with them. -/
theorem exec_forgetBreakBytes {i : Instr} {s t : State} (hi : i.isRequest = true) (h : exec i s = .next t) :
    exec i s.forgetBreakBytes = .next t.forgetBreakBytes := by
  by_cases hpoll : ∃ now, i = .poll now
  · obtain ⟨now, rfl⟩ := hpoll
    obtain ⟨hl, rfl⟩ := exec_poll_next.1 h
    refine exec_poll_next.2 ⟨hl, ?_⟩
    rw [framed_forgetBreakBytes]
    show (stateAction now { (framed s).begin with rxin := (framed s).rxin.filter fun r => !r.inBreak }).setResult _ = _
    rw [stateAction_setRxin, State.forgetBreakBytes, setResult_rxin, stateAction_keeps_rxin, begin_rxin]
    rfl
  · have hpoll' : ∀ now, i ≠ .poll now := fun now h => hpoll ⟨now, h⟩
    obtain ⟨op, hop, he⟩ := exec_ignoresRxin hi hpoll'
    have hsame : t.rxin = s.rxin := (executed_of_exec h).rxin hi hpoll'
    rw [he] at h ⊢
    rw [State.forgetBreakBytes, State.forgetBreakBytes, hsame]
    exact runOp_setRxin hop h _

/-- Settles O27: a POLL that finds the bus held low discards all of `RXIN`, what arrives then is marked, and the marked
bytes make no difference to any request. -/
theorem breakDiscardsBytes : Obligations.BreakDiscardsBytes := by
  refine ⟨fun s now hl hb => ⟨framed_of_break hb, ?_⟩, fun s bytes rest hb hin => ?_, fun s t i => exec_forgetBreakBytes⟩
  · obtain ⟨t, h⟩ := exec_goes (.poll now) hl
    obtain ⟨h1, h2, h3, h4, h5⟩ := poll_framerOutputs h
    rw [framed_of_break hb] at h1 h2 h3 h4 h5
    refine ⟨t, h, h1, h2, h3, h4, h5, fun hq => ?_⟩
    have := poll_framer h hq
    rw [framed_of_break hb] at this
    exact this
  · rw [step_wire hin, receive, ← hb]
    rfl

end Sys2Proof.Machine
end

section
/-! The first dispatch after reset (R231), and the intervals in real time (R244, R247). -/

namespace Sys2Proof.Machine

/-- Settles O55: the empty queue takes the legal command, and IDLE with the spacing disarmed dispatches it. -/
theorem firstPollDispatches : Obligations.FirstPollDispatches := by
  intro p c tag now answers hp hpos hmax
  let e : Entry := { cmd := c, loop := false, tag := tag }
  let s : State := { State.resetOf p with txAnswers := true :: answers }
  let t : State := State.answer { s with nq := [e] } (.ok .none)
  have hl : s.CodesLegal := ⟨Nat.zero_le _, Nat.zero_le _⟩
  have hcap : (s.capacity .norm).toNat = p.qdepthN := resetOf_cfgCapN_toNat hp
  have hdepth : 1 ≤ p.qdepthN := hp.2.2.1
  have ht : exec (.enqn c false tag) s = .next t := by
    have hlegal : ¬ (c.length = 0 ∨ s.par.cmdMaxBytes < c.length) := by
      show ¬ (c.length = 0 ∨ p.cmdMaxBytes < c.length)
      omega
    have hroom : ¬ (s.capacity .norm).toNat ≤ (s.queue .norm).length := by
      rw [hcap]
      exact Nat.not_le.2 hdepth
    have hnew : ¬ ∃ e ∈ s.queue .norm, e.cmd = c := by rintro ⟨e, he, -⟩; cases he
    rw [exec_enqn, enqueue_next hl, if_neg hlegal, if_neg hroom, if_neg hnew]
    rfl
  have hu := (idleDispatches t now e [] hl rfl (.inl rfl)).2 rfl rfl
  rw [if_pos (show t.nextTxOk = true from rfl)] at hu
  exact ⟨t, _, ht, hu, rfl, rfl, rfl, rfl⟩

/-- The time since `start` as the block measures it is the real time, over the wrap of `now` (R161, R244). -/
theorem nowAt_sub {start time : Nat} (hle : start ≤ time) (hlt : time - start < 2 ^ 32) :
    (nowAt time - nowAt start).toNat = time - start := by
  have hbig : (2 : Nat) ^ 32 = 4294967296 := rfl
  rw [nowAt, nowAt, BitVec.toNat_sub, BitVec.toNat_ofNat, BitVec.toNat_ofNat]
  omega

theorem le_of_timeAdvances {e : Environment} {last time : Nat} (h : e.timeAdvances time = true)
    (hlast : e.lastPoll = some last) : last ≤ time := by
  simp only [Environment.timeAdvances, hlast, Bool.and_eq_true, decide_eq_true_eq] at h
  exact h.1

/-- IDLE with the spacing satisfied and a command queued presents a frame, whatever the answer to it is (R163, R164). -/
theorem sent_of_dispatch {s t : State} {now : U32} (hl : s.CodesLegal) (hq : s.qstate = 0)
    (hspacing : s.spacingArmed = false ∨ s.cfgSpacing.toNat ≤ (now - s.spacingStart).toNat)
    (hne : s.pq ≠ [] ∨ s.nq ≠ []) (h : exec (.poll now) s = .next t) : t.out.sent ≠ [] := by
  cases hp : s.pq with
  | cons e rest =>
    rw [(idleDispatches s now e rest hl hq hspacing).1 hp] at h
    split_ifs at h <;> cases h <;> exact List.cons_ne_nil _ _
  | nil =>
    cases hn : s.nq with
    | cons e rest =>
      rw [(idleDispatches s now e rest hl hq hspacing).2 hp hn] at h
      split_ifs at h <;> cases h <;> exact List.cons_ne_nil _ _
    | nil => exact absurd hn (hne.resolve_left (not_not.2 hp))

/-- Settles O59: under duty 1 the block's elapsed-time test is the real-time one, and each state acts exactly when it
holds. -/
theorem intervalsMeasureRealTime : Obligations.IntervalsMeasureRealTime := by
  intro s t e e' start last time canSend hlast hstart hlt hstep
  obtain ⟨hadv, hpoll, -, -⟩ := envStep_poll.1 hstep
  have hl := legal_of_exec_next rfl hpoll
  have hsub := nowAt_sub (hstart.trans (le_of_timeAdvances hadv hlast)) hlt
  refine ⟨fun hq hs hrx => ?_, fun hq hs => ?_, fun hq hs => ?_, fun hq harmed hs hne => ?_⟩
  · have hframe : (framed s).begin.rxDone = false := (poll_framerOutputs hpoll).2.1.symm.trans hrx
    have hstay := timeoutCheck_framed (nowAt time) s []
    rw [hs, hsub] at hstay
    rw [exec_poll_of_legal hl, stateAction_sending (s := (framed s).begin) _ ((framed_qstate s).trans hq),
      sendingAction_of_noFrame _ hframe] at hpoll
    cases hpoll.symm.trans (congrArg Host.Outcome.next hstay)
    split_ifs with h
    · exact iff_of_true rfl h
    · exact iff_of_false (fun h2 => absurd ((framed_qstate s).symm.trans h2) (by simp [hq])) h
  · rw [breakResetReleases s _ hl hq, hs, hsub] at hpoll
    split_ifs at hpoll with h <;> cases hpoll
    · exact iff_of_true rfl h
    · exact iff_of_false (fun h4 => absurd ((framed_qstate s).symm.trans h4) (by simp [hq])) h
  · rw [retryDecides s _ hl hq, hs, hsub] at hpoll
    split_ifs at hpoll with h <;> cases hpoll
    · exact iff_of_true nofun h
    · exact iff_of_true nofun h
    · exact iff_of_true nofun h
    · exact iff_of_false (fun h4 => h4 ((framed_qstate s).trans hq)) h
  · by_cases h : s.cfgSpacing.toNat ≤ time - start
    · refine iff_of_true ?_ h
      have hspacing : s.spacingArmed = false ∨ s.cfgSpacing.toNat ≤ (nowAt time - s.spacingStart).toNat :=
        .inr (by rw [hs, hsub]; exact h)
      exact sent_of_dispatch hl hq hspacing hne hpoll
    · refine iff_of_false ?_ h
      rw [idleWaits s _ hl hq (.inr ⟨harmed, by rw [hs, hsub]; omega⟩)] at hpoll
      cases hpoll
      exact fun h => h rfl

end Sys2Proof.Machine
end

section
/-! The retry bound (R173): what a list of POLLs leaves of an exchange, and the events it emits. -/

namespace Sys2Proof.Machine

/-! A POLL keeps the codes legal. -/

theorem framerByte_phase {s : State} (h : s.frPhase.toNat ≤ 2) (b : Byte) :
    (framerByte b s).1.frPhase.toNat ≤ 2 := by
  rcases framerByte_cases b s with
    ⟨-, -, e⟩ | ⟨-, -, -, e⟩ | ⟨-, -, -, e⟩ | ⟨-, -, e⟩ | ⟨-, -, e⟩ <;> rw [e]
  · exact (by decide : 1 ≤ 2)
  · exact (by decide : 2 ≤ 2)
  · exact h
  · exact Nat.zero_le 2
  · exact h

theorem framerLoop_phase (bs : List Received) {s : State} (h : s.frPhase.toNat ≤ 2) :
    (framerLoop bs s).frPhase.toNat ≤ 2 := by
  induction bs generalizing s with
  | nil => exact h
  | cons r bs ih =>
    rw [framerLoop_cons]
    split
    · exact ih h
    · split
      · exact framerByte_phase h r.byte
      · exact ih (framerByte_phase h r.byte)

theorem framed_codesLegal {s : State} (hl : s.CodesLegal) : (framed s).CodesLegal := by
  refine ⟨(congrArg BitVec.toNat (framed_qstate s)).trans_le hl.1, ?_⟩
  rcases Bool.eq_false_or_eq_true s.lineBreak with hb | hb
  · rw [framed_of_break hb]
    exact hl.2
  · rw [framed_of_released hb]
    exact framerLoop_phase s.rxin hl.2

theorem startAttempt_qstate (now : U32) (s : State) : (startAttempt now s).qstate.toNat ≤ 4 := by
  rw [startAttempt_eq]
  split
  · exact (by decide : 1 ≤ 4)
  · exact Nat.zero_le 4

theorem Acted.codesLegal {now : U32} {s t : State} (h : Acted now s t) (hl : s.CodesLegal) : t.CodesLegal := by
  constructor
  · cases h with
    | waited => exact hl.1
    | dispatched => exact startAttempt_qstate now _
    | completed => exact Nat.zero_le 4
    | reported => exact hl.1
    | timedOut => exact (by decide : 2 ≤ 4)
    | drivenLow => exact (by decide : 3 ≤ 4)
    | released => exact (by decide : 4 ≤ 4)
    | retried => exact startAttempt_qstate now _
    | exhausted => exact Nat.zero_le 4
  · by_cases hq : s.qstate = 2
    · cases h with
      | waited hne => exact absurd hq hne
      | drivenLow => exact Nat.zero_le 2
      | _ => simp_all
    · have := congrArg State.frPhase (h.outsideSequencer hq)
      exact (congrArg BitVec.toNat this).trans_le hl.2

theorem poll_codesLegal {now : U32} {s t : State} (h : exec (.poll now) s = .next t) : t.CodesLegal := by
  obtain ⟨u, hA, rfl⟩ := poll_acted h
  exact hA.codesLegal (framed_codesLegal (legal_of_exec_next rfl h))

/-! The part of the state that an exchange runs on. -/

/-- `s` without the framer, `RXIN` and the outputs of the last step. -/
def State.exchangePart (s : State) : State := { s.outsideFramer with out := Out.empty }

theorem framed_done_exchangePart (s : State) (es : List Event) (sent : List Bytes) :
    ((framed s).done es sent).exchangePart = s.exchangePart :=
  (congrArg (fun u : State => { u with out := Out.empty }) (framed_outsideFramer s) :)

theorem done_exchangePart (s : State) (es : List Event) (sent : List Bytes) :
    (s.done es sent).exchangePart = s.exchangePart := rfl

theorem cleared_exchangePart (s : State) : s.cleared.exchangePart = s.exchangePart.cleared := rfl

theorem cleared_of_attempt (s : State) (n : U16) : State.cleared { s with attempt := n } = s.cleared := rfl

/-- Over these ticks, whatever bytes arrive with no accepted reply among them, `v` becomes `v'` and the events but the
reports of dropped frames are `es`. -/
def Leads (c₀ : Byte) (v : State) (ks : List Tick) (v' : State) (es : List Event) : Prop :=
  ∀ s : State, s.CodesLegal → s.exchangePart = v → noReplyAccepted c₀ ks s = true →
    ∃ t log, pollLog ks s = some (t, log) ∧ t.CodesLegal ∧ t.exchangePart = v' ∧
      log.filter (fun x => !x.isFrameError) = es

theorem pollLog_cons {k : Tick} {later : List Tick} {s t : State} (h : tick k s = .next t) :
    pollLog (k :: later) s = (pollLog later t).map fun r => (r.1, t.out.events ++ r.2) := by
  rw [pollLog, h]

theorem noReplyAccepted_cons {c₀ : Byte} {k : Tick} {later : List Tick} {s t : State} (h : tick k s = .next t) :
    noReplyAccepted c₀ (k :: later) s =
      (!(decide (s.qstate = 1) && t.rxDone && acceptsReply c₀ t.rxFrame) && noReplyAccepted c₀ later t) := by
  rw [noReplyAccepted, h]

theorem tick_goes (k : Tick) {s : State} (hl : s.CodesLegal) : ∃ t, tick k s = .next t :=
  exec_goes (.poll k.now) (s := receive k.rx s) hl

/-- Two lists of ticks one after the other. -/
theorem pollLog_append {ks ls : List Tick} {s t : State} {log : List Event} (h : pollLog ks s = some (t, log)) :
    pollLog (ks ++ ls) s = (pollLog ls t).map fun r => (r.1, log ++ r.2) := by
  induction ks generalizing s log with
  | nil => cases h; simp
  | cons k ks ih =>
    cases ht : tick k s with
    | next u =>
      rw [pollLog_cons ht] at h
      obtain ⟨⟨t', log'⟩, hlog, heq⟩ := Option.map_eq_some_iff.1 h
      cases heq
      rw [List.cons_append, pollLog_cons ht, ih hlog]
      simp [Function.comp_def]
    | fault => rw [pollLog, ht] at h; cases h
    | refused => rw [pollLog, ht] at h; cases h

theorem noReplyAccepted_append {c₀ : Byte} {ks ls : List Tick} {s t : State} {log : List Event}
    (h : pollLog ks s = some (t, log)) :
    noReplyAccepted c₀ (ks ++ ls) s = (noReplyAccepted c₀ ks s && noReplyAccepted c₀ ls t) := by
  induction ks generalizing s log with
  | nil => cases h; rfl
  | cons k ks ih =>
    cases ht : tick k s with
    | next u =>
      rw [pollLog_cons ht] at h
      obtain ⟨⟨t', log'⟩, hlog, heq⟩ := Option.map_eq_some_iff.1 h
      cases heq
      rw [List.cons_append, noReplyAccepted_cons ht, noReplyAccepted_cons ht, ih hlog]
      exact (Bool.and_assoc _ _ _).symm
    | fault => rw [pollLog, ht] at h; cases h
    | refused => rw [pollLog, ht] at h; cases h

/-- A list of ticks goes on from legal codes. -/
theorem pollLog_goes (ks : List Tick) {s : State} (hl : s.CodesLegal) : ∃ t log, pollLog ks s = some (t, log) := by
  induction ks generalizing s with
  | nil => exact ⟨s, [], rfl⟩
  | cons k ks ih =>
    obtain ⟨u, hu⟩ := tick_goes k hl
    obtain ⟨t, log, h⟩ := ih (poll_codesLegal hu)
    exact ⟨t, u.out.events ++ log, by rw [pollLog_cons hu, h]; rfl⟩

theorem Leads.nil (c₀ : Byte) (v : State) : Leads c₀ v [] v [] := fun s hl hv _ => ⟨s, [], rfl, hl, hv, rfl⟩

theorem Leads.trans {c₀ : Byte} {u v w : State} {ks ls : List Tick} {es fs : List Event} (h₁ : Leads c₀ u ks v es)
    (h₂ : Leads c₀ v ls w fs) : Leads c₀ u (ks ++ ls) w (es ++ fs) := by
  intro s hl hu hno
  obtain ⟨t, log, ht⟩ := pollLog_goes ks hl
  rw [noReplyAccepted_append ht, Bool.and_eq_true] at hno
  obtain ⟨t', log', ht', hlt, hv, hes⟩ := h₁ s hl hu hno.1
  cases ht.symm.trans ht'
  obtain ⟨w, log₂, hw, hlw, hw', hfs⟩ := h₂ t hlt hv hno.2
  exact ⟨w, log ++ log₂, by rw [pollLog_append ht, hw]; rfl, hlw, hw', by rw [List.filter_append, hes, hfs]⟩

theorem Leads.of_tick {c₀ : Byte} {v v' : State} {k : Tick} {es : List Event}
    (h : ∀ s t : State, s.CodesLegal → s.exchangePart = v → exec (.poll k.now) (receive k.rx s) = .next t →
      noReplyAccepted c₀ [k] s = true →
        t.exchangePart = v' ∧ t.out.events.filter (fun x => !x.isFrameError) = es) :
    Leads c₀ v [k] v' es := by
  intro s hl hv hno
  obtain ⟨t, ht⟩ := tick_goes k hl
  obtain ⟨hv', hes⟩ := h s t hl hv ht hno
  exact ⟨t, t.out.events, by rw [pollLog_cons ht]; simp [pollLog], poll_codesLegal ht, hv', hes⟩

theorem Leads.stay {c₀ : Byte} {v : State} {ks : List Tick} (h : ∀ k ∈ ks, Leads c₀ v [k] v []) :
    Leads c₀ v ks v [] := by
  induction ks with
  | nil => exact .nil c₀ v
  | cons k ks ih =>
    obtain ⟨hk, hks⟩ := List.forall_mem_cons.1 h
    exact hk.trans (ih hks)

/-! One tick in each state of the sequencer. -/

/-- The interval of `v` has elapsed at the tick. -/
abbrev ElapsedAt (v : State) (k : Tick) : Prop := v.timerDur.toNat ≤ (k.now - v.timerStart).toNat

/-- One attempt more than those of `v` is over its budget. -/
abbrev OverBudget (v : State) : Prop := (v.attempt + 1).toNat > v.cfgMaxRetries.toNat

/-- A tick in SENDING without an accepted reply (R168, R169). -/
theorem tick_sending {c₀ : Byte} {cs : Bytes} {s t : State} {k : Tick} (hl : s.CodesLegal) (hq : s.qstate = 1)
    (hc : s.slot.cmd = c₀ :: cs) (h : exec (.poll k.now) (receive k.rx s) = .next t)
    (hno : noReplyAccepted c₀ [k] s = true) :
    ∃ es : List Event, es.filter (fun x => !x.isFrameError) = [] ∧
      t = if ElapsedAt (receive k.rx s) k then
          State.done { framed (receive k.rx s) with qstate := 2 } (es ++ [.timeout s.slot.tag s.attempt]) []
        else (framed (receive k.rx s)).done es [] := by
  obtain ⟨-, hdone, -, hframe, -⟩ := poll_framerOutputs h
  have hnone : (t.rxDone && acceptsReply c₀ t.rxFrame) = false := by
    rw [noReplyAccepted_cons (t := t) h] at hno
    simpa only [noReplyAccepted, hq, decide_true, Bool.true_and, Bool.and_true, Bool.not_eq_true'] using hno
  rw [hdone, hframe] at hnone
  have hnext := fun es => sendingWithoutReply (receive k.rx s) k.now c₀ cs es hl hq hc
  cases hrx : (framed (receive k.rx s)).rxDone with
  | false => exact ⟨[], rfl, Host.Outcome.next.inj (h.symm.trans (hnext [] (.inl ⟨hrx, rfl⟩)))⟩
  | true =>
    cases hd : decodeFrame (framed (receive k.rx s)).rxFrame (some c₀) none none with
    | ok r => simp [hrx, acceptsReply, hd] at hnone
    | error code =>
      exact ⟨[.frameError s.slot.tag code], rfl,
        Host.Outcome.next.inj (h.symm.trans (hnext _ (.inr ⟨code, hrx, hd, rfl⟩)))⟩

theorem leads_waiting {c₀ : Byte} {cs : Bytes} {v : State} {k : Tick} (hq : v.qstate = 1)
    (hc : v.slot.cmd = c₀ :: cs) (hrun : ¬ ElapsedAt v k) : Leads c₀ v [k] v [] := by
  refine .of_tick ?_
  rintro s t hl rfl h hno
  obtain ⟨es, hes, rfl⟩ := tick_sending hl hq hc h hno
  rw [if_neg (show ¬ ElapsedAt (receive k.rx s) k from hrun)]
  exact ⟨framed_done_exchangePart (receive k.rx s) es [], hes⟩

theorem leads_timeout {c₀ : Byte} {cs : Bytes} {v : State} {k : Tick} (hq : v.qstate = 1)
    (hc : v.slot.cmd = c₀ :: cs) (helapsed : ElapsedAt v k) :
    Leads c₀ v [k] { v with qstate := 2 } [.timeout v.slot.tag v.attempt] := by
  refine .of_tick ?_
  rintro s t hl rfl h hno
  obtain ⟨es, hes, rfl⟩ := tick_sending hl hq hc h hno
  rw [if_pos (show ElapsedAt (receive k.rx s) k from helapsed)]
  refine ⟨congrArg (fun u : State => { u with qstate := 2 }) (framed_done_exchangePart (receive k.rx s) es []), ?_⟩
  show (es ++ [Event.timeout s.slot.tag s.attempt]).filter _ = _
  rw [List.filter_append, hes]
  rfl

theorem leads_breakSet {c₀ : Byte} {v : State} {k : Tick} (hq : v.qstate = 2) :
    Leads c₀ v [k] { v with lineBreak := true, timerStart := k.now, timerDur := v.cfgBreak, qstate := 3 } [] := by
  refine .of_tick ?_
  rintro s t hl rfl h -
  rw [breakSetDrivesLow (receive k.rx s) k.now hl hq] at h
  cases h
  exact ⟨congrArg (fun u : State =>
    { u with lineBreak := true, timerStart := k.now, timerDur := s.cfgBreak, qstate := 3 })
    (framed_done_exchangePart (receive k.rx s) [] []), rfl⟩

theorem leads_holding {c₀ : Byte} {v : State} {k : Tick} (hq : v.qstate = 3) (hrun : ¬ ElapsedAt v k) :
    Leads c₀ v [k] v [] := by
  refine .of_tick ?_
  rintro s t hl rfl h -
  rw [breakResetReleases (receive k.rx s) k.now hl hq,
    if_neg (show ¬ ElapsedAt (receive k.rx s) k from hrun)] at h
  cases h
  exact ⟨framed_done_exchangePart (receive k.rx s) [] [], rfl⟩

theorem leads_release {c₀ : Byte} {v : State} {k : Tick} (hq : v.qstate = 3) (helapsed : ElapsedAt v k) :
    Leads c₀ v [k] { v with lineBreak := false, timerStart := k.now, qstate := 4 } [] := by
  refine .of_tick ?_
  rintro s t hl rfl h -
  rw [breakResetReleases (receive k.rx s) k.now hl hq,
    if_pos (show ElapsedAt (receive k.rx s) k from helapsed)] at h
  cases h
  exact ⟨congrArg (fun u : State => { u with lineBreak := false, timerStart := k.now, qstate := 4 })
    (framed_done_exchangePart (receive k.rx s) [] []), rfl⟩

theorem leads_recovering {c₀ : Byte} {v : State} {k : Tick} (hq : v.qstate = 4) (hrun : ¬ ElapsedAt v k) :
    Leads c₀ v [k] v [] := by
  refine .of_tick ?_
  rintro s t hl rfl h -
  rw [retryDecides (receive k.rx s) k.now hl hq,
    if_neg (show ¬ ElapsedAt (receive k.rx s) k from hrun)] at h
  cases h
  exact ⟨framed_done_exchangePart (receive k.rx s) [] [], rfl⟩

/-- `v` after its RETRY decision at `now` to transmit again (R172). -/
def State.retransmitted (now : U32) (v : State) : State :=
  { v.answerTaken with attempt := v.attempt + 1, timerStart := now, timerDur := v.cfgTimeout, qstate := 1 }

theorem leads_retransmit {c₀ : Byte} {v : State} {k : Tick} (hq : v.qstate = 4) (helapsed : ElapsedAt v k)
    (hbudget : ¬ OverBudget v) (hok : v.nextTxOk = true) :
    Leads c₀ v [k] (v.retransmitted k.now)
      [.transmitted v.slot.tag (v.attempt + 1)] := by
  refine .of_tick ?_
  rintro s t hl rfl h -
  rw [retryDecides (receive k.rx s) k.now hl hq,
    if_pos (show ElapsedAt (receive k.rx s) k from helapsed),
    if_neg (show ¬ OverBudget (receive k.rx s) from hbudget),
    if_pos (show (receive k.rx s).nextTxOk = true from hok)] at h
  cases h
  exact ⟨congrArg (fun u : State =>
    { u.answerTaken with attempt := s.attempt + 1, timerStart := k.now, timerDur := s.cfgTimeout, qstate := 1 })
    (framed_done_exchangePart (receive k.rx s) [] []), rfl⟩

theorem leads_exhausted {c₀ : Byte} {v : State} {k : Tick} (hq : v.qstate = 4) (helapsed : ElapsedAt v k)
    (hbudget : OverBudget v) :
    Leads c₀ v [k] v.cleared
      [.failed v.slot.tag .retriesExhausted (v.attempt + 1), .cleared .retriesExhausted] := by
  refine .of_tick ?_
  rintro s t hl rfl h -
  rw [retryDecides (receive k.rx s) k.now hl hq,
    if_pos (show ElapsedAt (receive k.rx s) k from helapsed),
    if_pos (show OverBudget (receive k.rx s) from hbudget)] at h
  cases h
  refine ⟨?_, rfl⟩
  rw [done_exchangePart, cleared_of_attempt, cleared_exchangePart, ← done_exchangePart (framed (receive k.rx s)) [] [],
    framed_done_exchangePart (receive k.rx s) [] []]
  rfl

/-! One attempt, and all of them. -/

/-- `v` in the recovery time that began at `start`. -/
def State.recovering (start : U32) (v : State) : State :=
  { v with lineBreak := false, timerStart := start, timerDur := v.cfgBreak, qstate := 4 }

/-- `v` waits for the reply to attempt `n` at the command of `e`, transmitted at `start`; the configuration is that of
`s`, and `answers` are the scripted answers to come. -/
structure Awaiting (s : State) (e : Entry) (n : Nat) (start : U32) (answers : List Bool) (v : State) : Prop where
  qstate : v.qstate = 1
  cmd : v.slot.cmd = e.cmd
  tag : v.slot.tag = e.tag
  attempt : v.attempt = BitVec.ofNat 16 n
  timerStart : v.timerStart = start
  timerDur : v.timerDur = s.cfgTimeout
  cfgTimeout : v.cfgTimeout = s.cfgTimeout
  cfgBreak : v.cfgBreak = s.cfgBreak
  cfgMaxRetries : v.cfgMaxRetries = s.cfgMaxRetries
  txAnswers : v.txAnswers = answers

/-- `v` after the dispatch of `e` from the queue `origin` at `now` (R163, R164). -/
def State.dispatched (origin : Queue) (now : U32) (e : Entry) (v : State) : State :=
  { v.answerTaken with
    slot := ⟨true, e.cmd, e.loop, e.tag, origin, encodeFrame v.par.txHeader e.cmd⟩
    attempt := 1, timerStart := now, timerDur := v.cfgTimeout, qstate := 1 }

/-- The dispatch of the first queued command (R163, R164). -/
theorem leads_dispatch {c₀ : Byte} {v : State} {k : Tick} {e : Entry} {q : List Entry} (hq : v.qstate = 0)
    (hs : v.spacingArmed = false ∨ v.cfgSpacing.toNat ≤ (k.now - v.spacingStart).toNat)
    (hqueue : v.pq = e :: q ∨ (v.pq = [] ∧ v.nq = e :: q)) (hok : v.nextTxOk = true) :
    ∃ w, Leads c₀ v [k] w [.transmitted e.tag 1] ∧ Awaiting v e 1 k.now v.txAnswers.tail w := by
  rcases hqueue with hp | ⟨hp, hn⟩
  · refine ⟨State.dispatched .prio k.now e { v with pq := q }, .of_tick ?_, by constructor <;> rfl⟩
    rintro s t hl rfl h -
    rw [(idleDispatches (receive k.rx s) k.now e q hl hq hs).1 hp,
      if_pos (show (receive k.rx s).nextTxOk = true from hok)] at h
    have hf := framed_done_exchangePart (receive k.rx s) [] []
    generalize framed (receive k.rx s) = f at h hf
    cases h
    exact ⟨congrArg (fun u : State => { u.answerTaken with
      pq := q, slot := ⟨true, e.cmd, e.loop, e.tag, .prio, encodeFrame s.par.txHeader e.cmd⟩
      attempt := 1, timerStart := k.now, timerDur := s.cfgTimeout, qstate := 1 }) hf, rfl⟩
  · refine ⟨State.dispatched .norm k.now e { v with nq := q }, .of_tick ?_, by constructor <;> rfl⟩
    rintro s t hl rfl h -
    rw [(idleDispatches (receive k.rx s) k.now e q hl hq hs).2 hp hn,
      if_pos (show (receive k.rx s).nextTxOk = true from hok)] at h
    have hf := framed_done_exchangePart (receive k.rx s) [] []
    generalize framed (receive k.rx s) = f at h hf
    cases h
    exact ⟨congrArg (fun u : State => { u.answerTaken with
      nq := q, slot := ⟨true, e.cmd, e.loop, e.tag, .norm, encodeFrame s.par.txHeader e.cmd⟩
      attempt := 1, timerStart := k.now, timerDur := s.cfgTimeout, qstate := 1 }) hf, rfl⟩

theorem Awaiting.attempt_succ {s v : State} {e : Entry} {n : Nat} {start : U32} {answers : List Bool}
    (hv : Awaiting s e n start answers v) : v.attempt + 1 = BitVec.ofNat 16 (n + 1) := by
  rw [hv.attempt, BitVec.ofNat_add]
  rfl

/-- The count of attempts does not wrap: the budget has 8 bits. -/
theorem Awaiting.overBudget_iff {s v : State} {e : Entry} {n : Nat} {start : U32} {answers : List Bool}
    (hv : Awaiting s e n start answers v) (hn : n ≤ 256) : OverBudget v ↔ s.cfgMaxRetries.toNat ≤ n := by
  rw [OverBudget, hv.attempt_succ, hv.cfgMaxRetries, BitVec.toNat_ofNat]
  omega

theorem Awaiting.recovered {s v : State} {e : Entry} {n : Nat} {start now : U32} {answers : List Bool} {k : Tick}
    (hv : Awaiting s e n start answers v) (h : s.cfgBreak.toNat ≤ (k.now - now).toNat) :
    ElapsedAt (v.recovering now) k := (congrArg BitVec.toNat hv.cfgBreak).trans_le h

theorem Awaiting.retransmitted {s v : State} {e : Entry} {n : Nat} {start : U32} (now now' : U32) {a : Bool}
    {answers : List Bool} (hv : Awaiting s e n start (a :: answers) v) :
    Awaiting s e (n + 1) now' answers ((v.recovering now).retransmitted now') where
  qstate := rfl
  cmd := hv.cmd
  tag := hv.tag
  attempt := hv.attempt_succ
  timerStart := rfl
  timerDur := hv.cfgTimeout
  cfgTimeout := hv.cfgTimeout
  cfgBreak := hv.cfgBreak
  cfgMaxRetries := hv.cfgMaxRetries
  txAnswers := congrArg List.tail hv.txAnswers

/-- An attempt up to its last POLL, the RETRY decision: its one event is the timeout. -/
theorem leads_attempt {c₀ : Byte} {cs : Bytes} {s v w : State} {e : Entry} {n : Nat} {start : U32}
    {answers : List Bool} {a : AttemptPolls} {es : List Event} (hv : Awaiting s e n start answers v)
    (hcmd : e.cmd = c₀ :: cs) (hwait : EndsAt start s.cfgTimeout a.waiting a.timeout)
    (hhold : EndsAt a.breakSet.now s.cfgBreak a.holding a.release)
    (hrec : EndsAt a.release.now s.cfgBreak a.recovering a.retry)
    (hretry : Leads c₀ (v.recovering a.release.now) [a.retry] w es) :
    Leads c₀ v a.polls w (.timeout e.tag (BitVec.ofNat 16 n) :: es) := by
  obtain ⟨hq, hc, htag, hn, rfl, hdur, htimeout, hbreak, -, -⟩ := hv
  have hc' := hc.trans hcmd
  rw [← hdur] at hwait
  rw [← hbreak] at hhold hrec
  rw [← htag, ← hn]
  exact (Leads.stay fun k hk => leads_waiting hq hc' (Nat.not_le.2 (hwait.1 k hk))).trans
    ((leads_timeout hq hc' hwait.2).trans
      ((leads_breakSet rfl).trans
        ((Leads.stay fun k hk => leads_holding rfl (Nat.not_le.2 (hhold.1 k hk))).trans
          ((leads_release rfl hhold.2).trans
            ((Leads.stay fun k hk => leads_recovering rfl (Nat.not_le.2 (hrec.1 k hk))).trans hretry)))))

/-- The attempts from number `n` on, the last of which uses up the budget (R173). -/
theorem leads_attempts {c₀ : Byte} {cs : Bytes} {s : State} {e : Entry} {answers : List Bool}
    (hcmd : e.cmd = c₀ :: cs) (a : AttemptPolls) (later : List AttemptPolls) {v : State} {n : Nat} {start : U32}
    (hpos : 1 ≤ n)
    (hlast : n + later.length = max s.cfgMaxRetries.toNat 1)
    (hv : Awaiting s e n start (List.replicate later.length true ++ answers) v)
    (htimes : IntervalsElapse s.cfgTimeout s.cfgBreak start (a :: later)) :
    ∃ w : State, w.txAnswers = answers ∧
      Leads c₀ v ((a :: later).map AttemptPolls.polls).flatten w.cleared (silentEvents e.tag n (later.length + 1)) := by
  have hM := s.cfgMaxRetries.isLt
  induction later generalizing a v n start with
  | nil =>
    obtain ⟨hwait, hhold, hrec, -⟩ := htimes
    rw [List.length_nil] at hlast
    have hover : OverBudget v := (hv.overBudget_iff (by omega)).2 (by omega)
    refine ⟨v.recovering a.release.now, hv.txAnswers, ?_⟩
    have h := leads_attempt hv hcmd hwait hhold hrec
      (leads_exhausted (v := v.recovering a.release.now) rfl (hv.recovered hrec.2) hover)
    rw [show (v.recovering a.release.now).attempt + 1 = BitVec.ofNat 16 (n + 1) from hv.attempt_succ,
      show (v.recovering a.release.now).slot.tag = e.tag from hv.tag] at h
    simpa [silentEvents] using h
  | cons b more ih =>
    obtain ⟨hwait, hhold, hrec, hlater⟩ := htimes
    rw [List.length_cons] at hlast
    have hwithin : ¬ OverBudget v := fun h => absurd ((hv.overBudget_iff (by omega)).1 h) (by omega)
    have hok : v.nextTxOk = true := by
      rw [State.nextTxOk, hv.txAnswers]
      rfl
    have h := leads_attempt hv hcmd hwait hhold hrec
      (leads_retransmit (v := v.recovering a.release.now) rfl (hv.recovered hrec.2) hwithin hok)
    obtain ⟨w, hw, hmore⟩ := ih b (by omega) (by omega) (hv.retransmitted a.release.now a.retry.now) hlater
    refine ⟨w, hw, ?_⟩
    rw [show (v.recovering a.release.now).attempt + 1 = BitVec.ofNat 16 (n + 1) from hv.attempt_succ,
      show (v.recovering a.release.now).slot.tag = e.tag from hv.tag] at h
    exact h.trans hmore

/-- Settles O46: the dispatch, then one `AttemptPolls` after another until the budget is used up. -/
theorem retryBound : Obligations.RetryBound := by
  intro s first e c₀ cs q answers attempts hl hq hcmd hs hqueue hlen hanswers htimes hno
  obtain ⟨a, later, rfl⟩ : ∃ a later, attempts = a :: later := List.exists_cons_of_length_pos (by omega)
  rw [← hlen, List.length_cons] at hanswers
  have hok : s.nextTxOk = true := by
    rw [State.nextTxOk, hanswers]
    rfl
  obtain ⟨v, hdispatch, hv⟩ := leads_dispatch (c₀ := c₀) (v := s.exchangePart) hq hs hqueue hok
  rw [show s.exchangePart.txAnswers.tail = List.replicate later.length true ++ answers from
    congrArg List.tail hanswers] at hv
  obtain ⟨w, hw, hattempts⟩ := leads_attempts (s := s.exchangePart) hcmd a later le_rfl
     ((Nat.add_comm 1 _).trans hlen) hv htimes
  obtain ⟨t, log, hrun, -, ht, hlog⟩ := (hdispatch.trans hattempts) s hl rfl hno
  refine ⟨t, log, hrun, ?_, congrArg State.qstate ht, congrArg State.pq ht, congrArg State.nq ht,
    congrArg State.slot ht, (congrArg State.txAnswers ht).trans hw⟩
  rw [hlog, ← hlen]
  rfl

end Sys2Proof.Machine
end

section
/-! The echo delays the reply by one POLL (R241): the three POLLs of the exchange, and the run under the duties. -/

namespace Sys2Proof.Machine

/-- What the exchange rests on between the transmission of the command of `x` from `s` at `start` and its reply. -/
structure Presented (s : State) (x : Entry) (start : U32) (u : State) : Prop where
  codes : u.CodesLegal
  par : u.par = s.par
  qstate : u.qstate = 1
  lineBreak : u.lineBreak = false
  frPhase : u.frPhase = frIdle
  cmd : u.slot.cmd = x.cmd
  tag : u.slot.tag = x.tag
  txFrame : u.slot.txFrame = encodeFrame s.par.txHeader x.cmd
  attempt : u.attempt = 1
  timerStart : u.timerStart = start
  timerDur : u.timerDur = s.cfgTimeout

theorem Presented.receive {s u : State} {x : Entry} {start : U32} (h : Presented s x start u) (bytes : Bytes) :
    Presented s x start (receive bytes u) := { h with codes := h.codes }

/-- A queued command is legal (R27). -/
theorem State.Inv.queuedLegal {s : State} {x : Entry} {q : List Entry} (h : s.Inv)
    (hqueue : s.pq = x :: q ∨ (s.pq = [] ∧ s.nq = x :: q)) : 1 ≤ x.cmd.length ∧ x.cmd.length ≤ 254 := by
  obtain ⟨-, -, -, -, -, hmax⟩ := h.params
  have hlegal : s.CommandLegal x.cmd := by
    rcases hqueue with hp | ⟨-, hn⟩
    · exact h.entriesLegal.1 x (hp ▸ List.mem_cons_self)
    · exact h.entriesLegal.2 x (hn ▸ List.mem_cons_self)
  exact ⟨hlegal.1, hlegal.2.trans hmax⟩

/-- The POLL that transmits (R163, R164). -/
theorem presented_of_dispatch {s : State} {x : Entry} {q : List Entry} {now : U32} (h : s.Inv) (hq : s.qstate = 0)
    (hin : s.rxin = []) (hidle : s.frPhase = 0)
    (hs : s.spacingArmed = false ∨ s.cfgSpacing.toNat ≤ (now - s.spacingStart).toNat)
    (hqueue : s.pq = x :: q ∨ (s.pq = [] ∧ s.nq = x :: q)) (hok : s.nextTxOk = true) :
    ∃ u, exec (.poll now) s = .next u ∧ Presented s x now u ∧ u.rxin = [] ∧
      u.out.events = [.transmitted x.tag 1] ∧ u.out.sent = [encodeFrame s.par.txHeader x.cmd] := by
  have hb : s.lineBreak = false := h.released_of_ne (by rw [hq]; decide)
  have hframed : framed s = { clearOneShot s with rxin := [] } := by rw [framed_of_released hb, hin, framerLoop_nil]
  have hdispatch := idleDispatches s now x q h.codes hq hs
  simp only [hok, if_true, hframed] at hdispatch
  rcases hqueue with hp | ⟨hp, hn⟩
  · have hpoll := hdispatch.1 hp
    exact ⟨_, hpoll, ⟨poll_codesLegal hpoll, rfl, rfl, hb, hidle, rfl, rfl, rfl, rfl, rfl, rfl⟩, rfl, rfl, rfl⟩
  · have hpoll := hdispatch.2 hp hn
    exact ⟨_, hpoll, ⟨poll_codesLegal hpoll, rfl, rfl, hb, hidle, rfl, rfl, rfl, rfl, rfl, rfl⟩, rfl, rfl, rfl⟩

/-- The POLL that takes the echo, inside the response interval (R130). -/
theorem presented_of_echo {s u : State} {x : Entry} {start now : U32} {rest : List Received}
    (h : Presented s x start u) (hpos : 1 ≤ x.cmd.length) (hlen : x.cmd.length ≤ 254)
    (hrun : (now - start).toNat < s.cfgTimeout.toNat)
    (hin : u.rxin = traffic (encodeFrame s.par.txHeader x.cmd) ++ rest) :
    ∃ v, exec (.poll now) u = .next v ∧ Presented s x start v ∧ v.rxin = rest ∧ v.txDone = true ∧
      v.txFrame = encodeFrame s.par.txHeader x.cmd ∧ v.rxDone = false ∧ v.out.events = [] ∧ v.out.sent = [] := by
  obtain ⟨c₀, cs, hx⟩ := List.exists_cons_of_length_pos hpos
  rw [encodeFrame_eq, ← h.par] at hin ⊢
  have hbody : (x.cmd ++ [xorFold (frameHead u.par.txHeader x.cmd)]).length = (lengthByte x.cmd).toNat := by
    rw [lengthByte_toNat hlen, List.length_append, List.length_singleton]
  have hframed := framed_of_txFrame h.lineBreak h.frPhase (noise := []) nofun hbody hin
  have hpoll := sendingWithoutReply u now c₀ cs [] h.codes h.qstate (h.cmd.trans hx)
    (.inl ⟨congrArg State.rxDone hframed, rfl⟩)
  rw [if_neg (by rw [h.timerDur, h.timerStart]; omega), hframed] at hpoll
  exact ⟨_, hpoll, { h with codes := poll_codesLegal hpoll, frPhase := rfl }, rfl, rfl, rfl, rfl, rfl, rfl⟩

/-- The end of an exchange, whether or not the command is queued again (R166, R167). -/
theorem completeExchange_ended (now : U32) (nak : Bool) (s : State) :
    (completeExchange now nak s).qstate = 0 ∧ (completeExchange now nak s).slot = InFlight.empty ∧
      (completeExchange now nak s).out.sent = s.out.sent ∧ (completeExchange now nak s).rxin = s.rxin := by
  obtain ⟨u, h, rfl | ⟨q, e, -, -, -, -, -, rfl⟩⟩ := completeExchange_cases now nak s <;> rw [h]
  · exact ⟨rfl, rfl, rfl, rfl⟩
  · cases q <;> exact ⟨rfl, rfl, rfl, rfl⟩

/-- The POLL that takes an accepted reply (R166). -/
theorem completed_of_reply {s v : State} {x : Entry} {start now : U32} {reply : Bytes} {r : FrameRecord}
    (h : Presented s x start v) (hne : s.par.txHeader ≠ s.par.rxHeader) (hhead : reply.head? = some s.par.rxHeader)
    (hd : decodeFrame reply x.cmd.head? none none = .ok r) (hin : v.rxin = traffic reply) :
    ∃ w, exec (.poll now) v = .next w ∧
      w.out.events = [.complete x.tag r.nak 1 (encodeFrame s.par.txHeader x.cmd) reply] ∧ w.out.sent = [] ∧
      w.qstate = 0 ∧ w.slot = InFlight.empty ∧ w.rxin = [] := by
  obtain ⟨hlen, -, hcount, -⟩ := decodeFrame_ok.1 hd
  obtain ⟨l, body, rfl⟩ : ∃ l body, reply = v.par.rxHeader :: l :: body := by
    match reply, hlen, hhead with
    | a :: l :: body, _, hhead => exact ⟨l, body, by rw [h.par]; cases hhead; rfl⟩
  have hframed := framed_of_rxFrame h.lineBreak h.frPhase (by rw [h.par]; exact hne) (noise := []) (rest := []) nofun
    hcount.symm (hin.trans (List.append_nil _).symm)
  have hreply : decodeReply (framed v).begin = .ok r := by
    rw [framed_decodeReply, h.cmd, hframed]
    exact hd
  obtain ⟨hq, hslot, hsent, hrxin⟩ := completeExchange_ended now r.nak (framed v).begin
  have hevents := completeExchange_events now r.nak (framed v).begin
  refine ⟨_, exec_poll_of_legal h.codes now, ?_⟩
  rw [stateAction_sending (s := (framed v).begin) now ((framed_qstate v).trans h.qstate),
    sendingAction_of_accepted now (s := (framed v).begin) (congrArg State.rxDone hframed) hreply]
  refine ⟨hevents.trans ?_, hsent, hq, hslot, hrxin.trans (congrArg State.rxin hframed)⟩
  simp [hframed, h.tag, h.attempt, h.txFrame]

theorem envRun_cons {a : EnvEvent} {later : List EnvEvent} {e e' : Environment} {s t : State}
    (h : envStep a e s = some (e', t)) :
    envRun (a :: later) e s = (envRun later e' t).map fun r => (r.1, r.2.1, a.emitted t ++ r.2.2) := by
  rw [envRun, h]
  rfl

/-- A later POLL that presents no frame meets its duties whatever the line could send (R243 items 1 and 4). -/
theorem envStep_poll_of_nothingSent {last time : Nat} {canSend : Bool} {s t : State} (hle : last ≤ time)
    (hlt : time - last < 2 ^ 32) (h : exec (.poll (nowAt time)) s = .next t) (hsent : t.out.sent = []) :
    envStep (.poll time canSend) ⟨some last, [], false⟩ s = some (⟨some time, [], false⟩, t) :=
  envStep_poll.2 ⟨by simp only [Environment.timeAdvances, hle, hlt, decide_true, Bool.and_true], h, .inl hsent,
    by simp [hsent]⟩

/-- Settles O60: the framer completes one frame in a POLL, so the first one after the transmission takes the echo and the
next one the reply. -/
theorem echoDelaysReply : Obligations.EchoDelaysReply := by
  intro s e x q reply r t₀ t₁ t₂ b₁ b₂ h hq hin hidle hs hqueue hok howed hopen hadv h01 hrun h12 hwrap hhead
    hd f first
  obtain ⟨hpos, hlen⟩ := h.queuedLegal hqueue
  have hdur := s.cfgTimeout.isLt
  obtain ⟨u, hu, hsent, huin, huev, husent⟩ := presented_of_dispatch h hq hin hidle hs hqueue hok
  have harrived : (receive reply (receive f u)).rxin = traffic f ++ traffic reply := by
    simp [receive, huin, hsent.lineBreak]
  obtain ⟨v, hv, hpending, hvin, hvtx, hvf, hvrx, hvev, hvsent⟩ :=
    presented_of_echo ((hsent.receive f).receive reply) hpos hlen (now := nowAt t₁)
      (by rw [nowAt_sub h01 (by omega)]; exact hrun) harrived
  obtain ⟨w, hw, hwev, hwsent, hwq, hwslot, hwin⟩ :=
    completed_of_reply (now := nowAt t₂) hpending h.params.1 hhead hd hvin
  have step₀ : envStep (.poll t₀ true) e s = some (⟨some t₀, f, false⟩, u) :=
    envStep_poll.2 ⟨hadv, hu, .inr hok, by rw [howed, hopen, husent]; simp [f]⟩
  have step₁ : envStep (.echo f) ⟨some t₀, f, false⟩ u = some (⟨some t₀, [], false⟩, receive f u) := by
    rw [envStep_echo (e := ⟨some t₀, f, false⟩) hsent.lineBreak rfl List.prefix_rfl, List.drop_length]
  have step₂ : envStep (.reply reply true) ⟨some t₀, [], false⟩ (receive f u) =
      some (⟨some t₀, [], false⟩, receive reply (receive f u)) :=
    envStep_reply reply true (hsent.receive f).lineBreak (.inl rfl)
  have step₃ : envStep (.poll t₁ b₁) ⟨some t₀, [], false⟩ (receive reply (receive f u)) =
      some (⟨some t₁, [], false⟩, v) :=
    envStep_poll_of_nothingSent h01 (by omega) hv hvsent
  have step₄ : envStep (.poll t₂ b₂) ⟨some t₁, [], false⟩ v = some (⟨some t₂, [], false⟩, w) :=
    envStep_poll_of_nothingSent h12 hwrap hw hwsent
  have hfirst : envRun first e s = some (⟨some t₁, [], false⟩, v, [.transmitted x.tag 1]) := by
    rw [envRun_cons step₀, envRun_cons step₁, envRun_cons step₂, envRun_cons step₃]
    simp [envRun, EnvEvent.emitted, huev, hvev]
  have hall : envRun (first ++ [.poll t₂ b₂]) e s =
      some (⟨some t₂, [], false⟩, w, [.transmitted x.tag 1, .complete x.tag r.nak 1 f reply]) := by
    change envRun [.poll t₀ true, .echo f, .reply reply true, .poll t₁ b₁, .poll t₂ b₂] e s = _
    rw [envRun_cons step₀, envRun_cons step₁, envRun_cons step₂, envRun_cons step₃, envRun_cons step₄]
    simp [envRun, EnvEvent.emitted, huev, hvev, hwev, f]
  exact ⟨⟨_, v, hfirst, hpending.qstate, hvtx, hvf, hvrx, hvin⟩,
    ⟨_, w, hall, by rw [dutiesMet, hall]; rfl, hwq, hwslot, hwin⟩⟩

end Sys2Proof.Machine
end
